-- ==== Sys2Proof/Word.lean ====
section
/-! DEFINITION. The plain data the block moves: bits, octets, the operand and the command word
(spec/00_scope.md section 6, spec/30_encoding.md R55). -/

namespace Sys2Proof

/-- One bit of a stream or one flag bit (spec/00_scope.md glossary, "binary symbol, 0 or 1"). -/
abbrev Bit := Bool

/-- One octet of the octet stream, or one amplitude 0..255 (spec/20_memory.md R45). -/
abbrev Byte := BitVec 8

/-- The operand `arg = CW[63:0]` of a command word (spec/30_encoding.md R55); also the width of a
response value (R57) and of a register index's value (spec/20_memory.md R41). -/
abbrev Arg := BitVec 64

/-- A command word: 72 bits, `op = CW[71:64]`, `arg = CW[63:0]` (spec/30_encoding.md R55). -/
abbrev CmdWord := BitVec 72

end Sys2Proof
end

