-- ==== Sys2Proof/Config.lean ====
section
/-! DEFINITION. The parameters of one instance of the block (spec/00_scope.md section 4). The OPEN ones
are constants without a body: nothing in Lean can evaluate them, so every statement holds for all their values.
The fixed ones are the spec's numbers. -/

namespace Sys2Proof.Config

/-- The OPEN parameter `W_FX` (spec/00_scope.md section 4, spec/93_implementation_defined.md U2), a positive
integer or `inf`: `none` stands for `inf`, `some n` for the width `n + 1` (log entry 1). -/
opaque fxWidthPred : Option Nat

/-- Names `AMP_LO` in its legal range 0..128 (log entry 2). -/
opaque ampLoRaw : Fin 129

/-- Names `AMP_HI` in its legal range 129..255, as the distance from 129 (log entry 2). -/
opaque ampHiRaw : Fin 127

/-- The OPEN parameter `AMP_LO` (spec/41_nrzi.md R106): `AMP_LO <= AMP_MID`. -/
def ampLo : Byte := BitVec.ofNat 8 ampLoRaw.val

/-- The OPEN parameter `AMP_HI` (spec/41_nrzi.md R106): `AMP_MID < AMP_HI`. -/
def ampHi : Byte := BitVec.ofNat 8 (129 + ampHiRaw.val)

/-- `AMP_MID`, the threshold for slicing raw amplitudes (spec/41_nrzi.md R107, decision D19). -/
def ampMid : Byte := 128

/-- `FRAC`, the fractional bits of the fixed-point path (spec/00_scope.md section 4). -/
def frac : Nat := 20

/-- The preamble octet 0xE5 (spec/40_line_encoders.md R85). -/
def preambleOctet : Byte := 0xE5

/-- The fixed 15-bit sync marker `1,0,0,0,1,0,0,1,0,0,0,1,0,0,1` (spec/40_line_encoders.md R84). -/
def syncMarker : List Bit :=
  [true, false, false, false, true, false, false, true, false, false, false, true, false, false, true]

end Sys2Proof.Config
end

