-- ==== Sys2Proof/Syntax.lean ====
section
/-! DEFINITION. The commands of the block, one constructor per row of spec/opcode_table.json
(spec/30_encoding.md R58, R60): what the operand carries, typed by its operand format. -/

namespace Sys2Proof

/-- The line codes: 0 Direct, 1 FM, 2 MFM, 3 RLL27 (spec/10_state.md R19, R22). -/
inductive Scheme where
  | direct
  | fm
  | mfm
  | rll27
  deriving DecidableEq, Repr

/-- The commands. A rational operand is kept as the pair of 32-bit fields as written (spec/10_state.md R14). -/
inductive Instr where
  /-- `NOP` (opcode 0x00), spec/45_system_commands.md R185. -/
  | nop
  /-- `RESET` (opcode 0x01), spec/45_system_commands.md R186. -/
  | reset
  /-- `CLRSTAT` (opcode 0x02), spec/45_system_commands.md R187. -/
  | clrstat (mask : BitVec 16)
  /-- `ENC.START` (opcode 0x10), spec/40_line_encoders.md R80. -/
  | encStart (scheme : Scheme) (tb : BitVec 32)
  /-- `ENC.BYTE` (opcode 0x11), spec/40_line_encoders.md R82. -/
  | encByte (b : Byte)
  /-- `ENC.BIT` (opcode 0x12), spec/40_line_encoders.md R81. -/
  | encBit (d : Bit)
  /-- `ENC.RAW` (opcode 0x13), spec/40_line_encoders.md R83. -/
  | encRaw (c : Bit)
  /-- `ENC.SYNC` (opcode 0x14), spec/40_line_encoders.md R84. -/
  | encSync
  /-- `ENC.FLUSH` (opcode 0x15), spec/40_line_encoders.md R79. -/
  | encFlush
  /-- `ENC.PRE` (opcode 0x16), spec/40_line_encoders.md R85. -/
  | encPre (n : BitVec 16)
  /-- `DEM.START` (opcode 0x20), spec/41_nrzi.md R108. -/
  | demStart
  /-- `DEM.LEVEL` (opcode 0x21), spec/41_nrzi.md R109. -/
  | demLevel (l : Bit)
  /-- `SCN.START` (opcode 0x28), spec/42_sync_frame.md R116. -/
  | scnStart (scheme : Scheme)
  /-- `SCN.BIT` (opcode 0x29), spec/42_sync_frame.md R117. -/
  | scnBit (c : Bit)
  /-- `SCN.END` (opcode 0x2A), spec/42_sync_frame.md R127. -/
  | scnEnd
  /-- `CDRF.START` (opcode 0x30), spec/43_cdr_float.md R143. -/
  | cdrfStart
  /-- `CDRF.SAMPLE` (opcode 0x31), spec/43_cdr_float.md R144. -/
  | cdrfSample (b : Bit)
  /-- `CDRF.AMP` (opcode 0x32), spec/43_cdr_float.md R150. -/
  | cdrfAmp (a : Byte)
  /-- `CDRX.START` (opcode 0x38), spec/44_cdr_fixed.md R162. -/
  | cdrxStart
  /-- `CDRX.SAMPLE` (opcode 0x39), spec/44_cdr_fixed.md R163. -/
  | cdrxSample (b : Bit)
  /-- `CDRX.AMP` (opcode 0x3A), spec/44_cdr_fixed.md R170. -/
  | cdrxAmp (a : Byte)
  /-- `WR.ALPHA` (opcode 0x40), spec/45_system_commands.md R188. -/
  | wrAlpha (num den : BitVec 32)
  /-- `WR.KI` (opcode 0x41), spec/45_system_commands.md R188. -/
  | wrKi (num den : BitVec 32)
  /-- `WR.KP` (opcode 0x42), spec/45_system_commands.md R188. -/
  | wrKp (num den : BitVec 32)
  /-- `WR.INTEG_MAX` (opcode 0x43), spec/45_system_commands.md R188. -/
  | wrIntegMax (num den : BitVec 32)
  /-- `WR.ACC_SIZE` (opcode 0x44), spec/45_system_commands.md R188. -/
  | wrAccSize (v : BitVec 32)
  /-- `WR.TB_C` (opcode 0x45), spec/45_system_commands.md R188. -/
  | wrTbC (v : BitVec 32)
  /-- `WR.CHAIN` (opcode 0x46), spec/45_system_commands.md R188. -/
  | wrChain (v : BitVec 3)
  /-- `WR.MARKER` (opcode 0x47), spec/45_system_commands.md R188. -/
  | wrMarker (v : BitVec 64)
  /-- `WR.MARKER_LEN` (opcode 0x48), spec/45_system_commands.md R188. -/
  | wrMarkerLen (v : BitVec 7)
  /-- `RD.ALPHA` (opcode 0x80), spec/45_system_commands.md R189. -/
  | rdAlpha
  /-- `RD.KI` (opcode 0x81), spec/45_system_commands.md R189. -/
  | rdKi
  /-- `RD.KP` (opcode 0x82), spec/45_system_commands.md R189. -/
  | rdKp
  /-- `RD.INTEG_MAX` (opcode 0x83), spec/45_system_commands.md R189. -/
  | rdIntegMax
  /-- `RD.ACC_SIZE` (opcode 0x84), spec/45_system_commands.md R189. -/
  | rdAccSize
  /-- `RD.TB_C` (opcode 0x85), spec/45_system_commands.md R189. -/
  | rdTbC
  /-- `RD.CHAIN` (opcode 0x86), spec/45_system_commands.md R189. -/
  | rdChain
  /-- `RD.MARKER` (opcode 0x87), spec/45_system_commands.md R189. -/
  | rdMarker
  /-- `RD.MARKER_LEN` (opcode 0x88), spec/45_system_commands.md R189. -/
  | rdMarkerLen
  /-- `RD.STATUS` (opcode 0x90), spec/45_system_commands.md R189. -/
  | rdStatus
  /-- `RD.ENC_STATE` (opcode 0x91), spec/45_system_commands.md R189. -/
  | rdEncState
  /-- `RD.ENC_TB` (opcode 0x92), spec/45_system_commands.md R189. -/
  | rdEncTb
  /-- `RD.ENC_DCNT` (opcode 0x93), spec/45_system_commands.md R189. -/
  | rdEncDcnt
  /-- `RD.ENC_CCNT` (opcode 0x94), spec/45_system_commands.md R189. -/
  | rdEncCcnt
  /-- `RD.DEM_STATE` (opcode 0x95), spec/45_system_commands.md R189. -/
  | rdDemState
  /-- `RD.DEM_CNT` (opcode 0x96), spec/45_system_commands.md R189. -/
  | rdDemCnt
  /-- `RD.SCN_STATE` (opcode 0x97), spec/45_system_commands.md R189. -/
  | rdScnState
  /-- `RD.SCN_IDX` (opcode 0x98), spec/45_system_commands.md R189. -/
  | rdScnIdx
  /-- `RD.SCN_POS` (opcode 0x99), spec/45_system_commands.md R189. -/
  | rdScnPos
  /-- `RD.DEC_NBYTES` (opcode 0x9A), spec/45_system_commands.md R189. -/
  | rdDecNbytes
  /-- `RD.DEC_DISCARD` (opcode 0x9B), spec/45_system_commands.md R189. -/
  | rdDecDiscard
  /-- `RD.DEC_DANGLE` (opcode 0x9C), spec/45_system_commands.md R189. -/
  | rdDecDangle
  /-- `RD.SCN_SR` (opcode 0x9D), spec/45_system_commands.md R189. -/
  | rdScnSr
  /-- `RD.DEC_ASM` (opcode 0x9E), spec/45_system_commands.md R189. -/
  | rdDecAsm
  /-- `RD.SCN_EVIDX` (opcode 0x9F), spec/45_system_commands.md R189. -/
  | rdScnEvidx
  /-- `RD.CDRF_STATE` (opcode 0xA0), spec/45_system_commands.md R189. -/
  | rdCdrfState
  /-- `RD.CDRF_IDX` (opcode 0xA1), spec/45_system_commands.md R189. -/
  | rdCdrfIdx
  /-- `RD.CDRF_NREC` (opcode 0xA2), spec/45_system_commands.md R189. -/
  | rdCdrfNrec
  /-- `RD.CDRF_SAT` (opcode 0xA3), spec/45_system_commands.md R189. -/
  | rdCdrfSat
  /-- `RD.CDRF_SAT_FIRST` (opcode 0xA4), spec/45_system_commands.md R189. -/
  | rdCdrfSatFirst
  /-- `RD.CDRX_STATE` (opcode 0xB0), spec/45_system_commands.md R189. -/
  | rdCdrxState
  /-- `RD.CDRX_IDX` (opcode 0xB1), spec/45_system_commands.md R189. -/
  | rdCdrxIdx
  /-- `RD.CDRX_NREC` (opcode 0xB2), spec/45_system_commands.md R189. -/
  | rdCdrxNrec
  /-- `RD.CDRX_SAT` (opcode 0xB3), spec/45_system_commands.md R189. -/
  | rdCdrxSat
  /-- `RD.CDRX_SAT_FIRST` (opcode 0xB4), spec/45_system_commands.md R189. -/
  | rdCdrxSatFirst
  /-- `RD.CDRX_MAXW` (opcode 0xB5), spec/45_system_commands.md R189. -/
  | rdCdrxMaxw
  /-- `RD.CDRX_FAULT_IDX` (opcode 0xB6), spec/45_system_commands.md R189. -/
  | rdCdrxFaultIdx
  /-- `RD.CDRX_FAULT_STEP` (opcode 0xB7), spec/45_system_commands.md R189. -/
  | rdCdrxFaultStep
  /-- `RD.X_ACC` (opcode 0xB8), spec/45_system_commands.md R189. -/
  | rdXAcc
  /-- `RD.X_LAST` (opcode 0xB9), spec/45_system_commands.md R189. -/
  | rdXLast
  /-- `RD.X_PD` (opcode 0xBA), spec/45_system_commands.md R189. -/
  | rdXPd
  /-- `RD.X_PDF` (opcode 0xBB), spec/45_system_commands.md R189. -/
  | rdXPdf
  /-- `RD.X_INTEG` (opcode 0xBC), spec/45_system_commands.md R189. -/
  | rdXInteg
  /-- `RD.X_FTW` (opcode 0xBD), spec/45_system_commands.md R189. -/
  | rdXFtw
  /-- `RD.X_ALPHA` (opcode 0xC0), spec/45_system_commands.md R189. -/
  | rdXAlpha
  /-- `RD.X_KI` (opcode 0xC1), spec/45_system_commands.md R189. -/
  | rdXKi
  /-- `RD.X_KP` (opcode 0xC2), spec/45_system_commands.md R189. -/
  | rdXKp
  /-- `RD.X_IMAX` (opcode 0xC3), spec/45_system_commands.md R189. -/
  | rdXImax
  /-- `RD.X_ACCSZ` (opcode 0xC4), spec/45_system_commands.md R189. -/
  | rdXAccsz
  /-- `RD.X_FTW0` (opcode 0xC5), spec/45_system_commands.md R189. -/
  | rdXFtw0
  deriving DecidableEq, Repr

end Sys2Proof
end

