-- ==== Sys2Proof/WellFormed.lean ====
section
/-! DEFINITION. Which operand values of a command are legal (spec/30_encoding.md R59). Every value a
constructor of `Instr` can carry fits its operand field, so every command is encodable; `Instr.wf` is the check beyond
that: a command that fails it decodes and is answered with BadOperand. -/

namespace Sys2Proof

/-- The operand values R59 does not name as illegal. -/
def Instr.wf : Instr → Bool
  | .encStart _ tb => tb != 0
  | .wrAlpha _ den => den != 0
  | .wrKi _ den => den != 0
  | .wrKp _ den => den != 0
  | .wrIntegMax num den => den != 0 && !num.msb
  | .wrAccSize v => v != 0
  | .wrTbC v => v != 0
  | .wrChain v => v.extractLsb' 0 2 != 3
  | .wrMarkerLen v => v != 0 && decide (v.toNat ≤ 64)
  | .nop | .reset | .clrstat _ | .encByte _ | .encBit _ | .encRaw _ | .encSync | .encFlush | .encPre _ => true
  | .demStart | .demLevel _ | .scnStart _ | .scnBit _ | .scnEnd => true
  | .cdrfStart | .cdrfSample _ | .cdrfAmp _ | .cdrxStart | .cdrxSample _ | .cdrxAmp _ | .wrMarker _ => true
  | .rdAlpha | .rdKi | .rdKp | .rdIntegMax | .rdAccSize | .rdTbC | .rdChain | .rdMarker => true
  | .rdMarkerLen | .rdStatus | .rdEncState | .rdEncTb | .rdEncDcnt | .rdEncCcnt | .rdDemState | .rdDemCnt => true
  | .rdScnState | .rdScnIdx | .rdScnPos | .rdDecNbytes | .rdDecDiscard | .rdDecDangle | .rdScnSr | .rdDecAsm => true
  | .rdScnEvidx | .rdCdrfState | .rdCdrfIdx | .rdCdrfNrec | .rdCdrfSat | .rdCdrfSatFirst | .rdCdrxState | .rdCdrxIdx => true
  | .rdCdrxNrec | .rdCdrxSat | .rdCdrxSatFirst | .rdCdrxMaxw | .rdCdrxFaultIdx | .rdCdrxFaultStep | .rdXAcc | .rdXLast => true
  | .rdXPd | .rdXPdf | .rdXInteg | .rdXFtw | .rdXAlpha | .rdXKi | .rdXKp | .rdXImax => true
  | .rdXAccsz | .rdXFtw0 => true

end Sys2Proof
end

