-- ==== Sys2Proof/Decode.lean ====
section
/-! DEFINITION. Decoding a command word by the opcode table (spec/30_encoding.md R55, R56, R58, R60), total, and
the encoder. Decoding reads no state. -/

namespace Sys2Proof

/-! ### The fields of a command word (R55) and of its operand (R58) -/

/-- `op = CW[71:64]`. -/
def opOf (cw : CmdWord) : Byte := cw.extractLsb' 64 8

/-- `arg = CW[63:0]`. -/
def argOf (cw : CmdWord) : Arg := cw.extractLsb' 0 64

/-- The word whose opcode is `op` and whose operand is `arg`. -/
def mkWord (op : Byte) (arg : Arg) : CmdWord := op ++ arg

/-- `bit = arg[0]` (format B1). -/
def fieldBit (arg : Arg) : Bit := arg.getLsbD 0

/-- `byte = arg[7:0]` (format B8). -/
def fieldByte (arg : Arg) : Byte := arg.extractLsb' 0 8

/-- `n = arg[15:0]`, `mask = arg[15:0]` (format C16). -/
def fieldC16 (arg : Arg) : BitVec 16 := arg.extractLsb' 0 16

/-- The two-bit code of a scheme: 0 Direct, 1 FM, 2 MFM, 3 RLL27. -/
def Scheme.code : Scheme → BitVec 2
  | .direct => 0
  | .fm => 1
  | .mfm => 2
  | .rll27 => 3

/-- The scheme a two-bit code names. -/
def schemeOf (v : BitVec 2) : Scheme :=
  if v = 0 then .direct else if v = 1 then .fm else if v = 2 then .mfm else .rll27

/-- `scheme = arg[1:0]` (formats ES, S2). -/
def fieldScheme (arg : Arg) : Scheme := schemeOf (arg.extractLsb' 0 2)

/-- `tb = arg[47:16]` (format ES). -/
def fieldTb (arg : Arg) : BitVec 32 := arg.extractLsb' 16 32

/-- `arg[63:32]`, the numerator of a rational (format RAT), read as signed where its value is taken. -/
def fieldNum (arg : Arg) : BitVec 32 := arg.extractLsb' 32 32

/-- `den = arg[31:0]` (format RAT), `v = arg[31:0]` (format U32). -/
def fieldLow32 (arg : Arg) : BitVec 32 := arg.extractLsb' 0 32

/-- `v = arg[2:0]` (format U3). -/
def fieldU3 (arg : Arg) : BitVec 3 := arg.extractLsb' 0 3

/-- `v = arg[6:0]` (format U7). -/
def fieldU7 (arg : Arg) : BitVec 7 := arg.extractLsb' 0 7

/-! ### The opcode table (R60) -/

/-- The operand formats of R58. -/
inductive Format where
  | N
  | B1
  | B8
  | C16
  | ES
  | S2
  | RAT
  | U32
  | U3
  | U64
  | U7
  deriving DecidableEq, Repr

/-- The low half of a row's mask: the operand bits the format does not use, which must be 0 (R56, R60). -/
def Format.unused : Format → Arg
  | .N => 0xFFFFFFFFFFFFFFFF
  | .B1 => 0xFFFFFFFFFFFFFFFE
  | .B8 => 0xFFFFFFFFFFFFFF00
  | .C16 => 0xFFFFFFFFFFFF0000
  | .ES => 0xFFFF00000000FFFC
  | .S2 => 0xFFFFFFFFFFFFFFFC
  | .RAT => 0
  | .U32 => 0xFFFFFFFF00000000
  | .U3 => 0xFFFFFFFFFFFFFFF8
  | .U64 => 0
  | .U7 => 0xFFFFFFFFFFFFFF80

/-- One row of the opcode table. `build` makes the command from the operand. -/
structure OpRow where
  op : Byte
  mnemonic : String
  format : Format
  build : Arg → Instr

/-- A row's `mask`: all eight opcode bits and the unused operand bits. -/
def OpRow.mask (r : OpRow) : CmdWord := mkWord 0xFF r.format.unused

/-- A row's `match`: the opcode, with operand 0. -/
def OpRow.pattern (r : OpRow) : CmdWord := mkWord r.op 0

/-- "A command word `CW` selects a row when `CW and mask = match`" (R60). -/
def OpRow.selectedBy (r : OpRow) (cw : CmdWord) : Bool := cw &&& r.mask == r.pattern

/-- The system rows and the ENC rows of R60. -/
def sysEncRows : List OpRow := [
  ⟨0x00, "NOP", .N, fun _ => .nop⟩,
  ⟨0x01, "RESET", .N, fun _ => .reset⟩,
  ⟨0x02, "CLRSTAT", .C16, fun a => .clrstat (fieldC16 a)⟩,
  ⟨0x10, "ENC.START", .ES, fun a => .encStart (fieldScheme a) (fieldTb a)⟩,
  ⟨0x11, "ENC.BYTE", .B8, fun a => .encByte (fieldByte a)⟩,
  ⟨0x12, "ENC.BIT", .B1, fun a => .encBit (fieldBit a)⟩,
  ⟨0x13, "ENC.RAW", .B1, fun a => .encRaw (fieldBit a)⟩,
  ⟨0x14, "ENC.SYNC", .N, fun _ => .encSync⟩,
  ⟨0x15, "ENC.FLUSH", .N, fun _ => .encFlush⟩,
  ⟨0x16, "ENC.PRE", .C16, fun a => .encPre (fieldC16 a)⟩]

/-- The DEM, SCN, CDRF and CDRX rows of R60. -/
def decodeRows : List OpRow := [
  ⟨0x20, "DEM.START", .N, fun _ => .demStart⟩,
  ⟨0x21, "DEM.LEVEL", .B1, fun a => .demLevel (fieldBit a)⟩,
  ⟨0x28, "SCN.START", .S2, fun a => .scnStart (fieldScheme a)⟩,
  ⟨0x29, "SCN.BIT", .B1, fun a => .scnBit (fieldBit a)⟩,
  ⟨0x2A, "SCN.END", .N, fun _ => .scnEnd⟩,
  ⟨0x30, "CDRF.START", .N, fun _ => .cdrfStart⟩,
  ⟨0x31, "CDRF.SAMPLE", .B1, fun a => .cdrfSample (fieldBit a)⟩,
  ⟨0x32, "CDRF.AMP", .B8, fun a => .cdrfAmp (fieldByte a)⟩,
  ⟨0x38, "CDRX.START", .N, fun _ => .cdrxStart⟩,
  ⟨0x39, "CDRX.SAMPLE", .B1, fun a => .cdrxSample (fieldBit a)⟩,
  ⟨0x3A, "CDRX.AMP", .B8, fun a => .cdrxAmp (fieldByte a)⟩]

/-- The `WR` rows of R60: opcode `0x40 + idx`. -/
def writeRows : List OpRow := [
  ⟨0x40, "WR.ALPHA", .RAT, fun a => .wrAlpha (fieldNum a) (fieldLow32 a)⟩,
  ⟨0x41, "WR.KI", .RAT, fun a => .wrKi (fieldNum a) (fieldLow32 a)⟩,
  ⟨0x42, "WR.KP", .RAT, fun a => .wrKp (fieldNum a) (fieldLow32 a)⟩,
  ⟨0x43, "WR.INTEG_MAX", .RAT, fun a => .wrIntegMax (fieldNum a) (fieldLow32 a)⟩,
  ⟨0x44, "WR.ACC_SIZE", .U32, fun a => .wrAccSize (fieldLow32 a)⟩,
  ⟨0x45, "WR.TB_C", .U32, fun a => .wrTbC (fieldLow32 a)⟩,
  ⟨0x46, "WR.CHAIN", .U3, fun a => .wrChain (fieldU3 a)⟩,
  ⟨0x47, "WR.MARKER", .U64, fun a => .wrMarker a⟩,
  ⟨0x48, "WR.MARKER_LEN", .U7, fun a => .wrMarkerLen (fieldU7 a)⟩]

/-- The `RD` rows of R60 for indices 0x00..0x1F: opcode `0x80 + idx`. -/
def readLowRows : List OpRow := [
  ⟨0x80, "RD.ALPHA", .N, fun _ => .rdAlpha⟩,
  ⟨0x81, "RD.KI", .N, fun _ => .rdKi⟩,
  ⟨0x82, "RD.KP", .N, fun _ => .rdKp⟩,
  ⟨0x83, "RD.INTEG_MAX", .N, fun _ => .rdIntegMax⟩,
  ⟨0x84, "RD.ACC_SIZE", .N, fun _ => .rdAccSize⟩,
  ⟨0x85, "RD.TB_C", .N, fun _ => .rdTbC⟩,
  ⟨0x86, "RD.CHAIN", .N, fun _ => .rdChain⟩,
  ⟨0x87, "RD.MARKER", .N, fun _ => .rdMarker⟩,
  ⟨0x88, "RD.MARKER_LEN", .N, fun _ => .rdMarkerLen⟩,
  ⟨0x90, "RD.STATUS", .N, fun _ => .rdStatus⟩,
  ⟨0x91, "RD.ENC_STATE", .N, fun _ => .rdEncState⟩,
  ⟨0x92, "RD.ENC_TB", .N, fun _ => .rdEncTb⟩,
  ⟨0x93, "RD.ENC_DCNT", .N, fun _ => .rdEncDcnt⟩,
  ⟨0x94, "RD.ENC_CCNT", .N, fun _ => .rdEncCcnt⟩,
  ⟨0x95, "RD.DEM_STATE", .N, fun _ => .rdDemState⟩,
  ⟨0x96, "RD.DEM_CNT", .N, fun _ => .rdDemCnt⟩,
  ⟨0x97, "RD.SCN_STATE", .N, fun _ => .rdScnState⟩,
  ⟨0x98, "RD.SCN_IDX", .N, fun _ => .rdScnIdx⟩,
  ⟨0x99, "RD.SCN_POS", .N, fun _ => .rdScnPos⟩,
  ⟨0x9A, "RD.DEC_NBYTES", .N, fun _ => .rdDecNbytes⟩,
  ⟨0x9B, "RD.DEC_DISCARD", .N, fun _ => .rdDecDiscard⟩,
  ⟨0x9C, "RD.DEC_DANGLE", .N, fun _ => .rdDecDangle⟩,
  ⟨0x9D, "RD.SCN_SR", .N, fun _ => .rdScnSr⟩,
  ⟨0x9E, "RD.DEC_ASM", .N, fun _ => .rdDecAsm⟩,
  ⟨0x9F, "RD.SCN_EVIDX", .N, fun _ => .rdScnEvidx⟩]

/-- The `RD` rows of R60 for indices 0x20..0x45. -/
def readHighRows : List OpRow := [
  ⟨0xA0, "RD.CDRF_STATE", .N, fun _ => .rdCdrfState⟩,
  ⟨0xA1, "RD.CDRF_IDX", .N, fun _ => .rdCdrfIdx⟩,
  ⟨0xA2, "RD.CDRF_NREC", .N, fun _ => .rdCdrfNrec⟩,
  ⟨0xA3, "RD.CDRF_SAT", .N, fun _ => .rdCdrfSat⟩,
  ⟨0xA4, "RD.CDRF_SAT_FIRST", .N, fun _ => .rdCdrfSatFirst⟩,
  ⟨0xB0, "RD.CDRX_STATE", .N, fun _ => .rdCdrxState⟩,
  ⟨0xB1, "RD.CDRX_IDX", .N, fun _ => .rdCdrxIdx⟩,
  ⟨0xB2, "RD.CDRX_NREC", .N, fun _ => .rdCdrxNrec⟩,
  ⟨0xB3, "RD.CDRX_SAT", .N, fun _ => .rdCdrxSat⟩,
  ⟨0xB4, "RD.CDRX_SAT_FIRST", .N, fun _ => .rdCdrxSatFirst⟩,
  ⟨0xB5, "RD.CDRX_MAXW", .N, fun _ => .rdCdrxMaxw⟩,
  ⟨0xB6, "RD.CDRX_FAULT_IDX", .N, fun _ => .rdCdrxFaultIdx⟩,
  ⟨0xB7, "RD.CDRX_FAULT_STEP", .N, fun _ => .rdCdrxFaultStep⟩,
  ⟨0xB8, "RD.X_ACC", .N, fun _ => .rdXAcc⟩,
  ⟨0xB9, "RD.X_LAST", .N, fun _ => .rdXLast⟩,
  ⟨0xBA, "RD.X_PD", .N, fun _ => .rdXPd⟩,
  ⟨0xBB, "RD.X_PDF", .N, fun _ => .rdXPdf⟩,
  ⟨0xBC, "RD.X_INTEG", .N, fun _ => .rdXInteg⟩,
  ⟨0xBD, "RD.X_FTW", .N, fun _ => .rdXFtw⟩,
  ⟨0xC0, "RD.X_ALPHA", .N, fun _ => .rdXAlpha⟩,
  ⟨0xC1, "RD.X_KI", .N, fun _ => .rdXKi⟩,
  ⟨0xC2, "RD.X_KP", .N, fun _ => .rdXKp⟩,
  ⟨0xC3, "RD.X_IMAX", .N, fun _ => .rdXImax⟩,
  ⟨0xC4, "RD.X_ACCSZ", .N, fun _ => .rdXAccsz⟩,
  ⟨0xC5, "RD.X_FTW0", .N, fun _ => .rdXFtw0⟩]

/-- The opcode table: 80 rows (R60). -/
def opcodeTable : List OpRow := sysEncRows ++ decodeRows ++ writeRows ++ readLowRows ++ readHighRows

/-! ### The decoder (R56, R61) -/

/-- Why a word is illegal. Both are the spec's one event IllegalCommand (R61), with the opcode byte as its value. -/
inductive DecodeError where
  /-- No row has this opcode. -/
  | reservedOpcode (op : Byte)
  /-- The opcode is listed and an operand bit its row does not use is 1. -/
  | strayOperandBits (op : Byte)
  deriving DecidableEq, Repr

/-- `CW[71:64]` of the illegal word, the value its event reports. -/
def DecodeError.op : DecodeError → Byte
  | .reservedOpcode op => op
  | .strayOperandBits op => op

/-- Decode a command word: "the one row of the opcode table with `CW and mask = match`" (R56). -/
def decode (cw : CmdWord) : Except DecodeError Instr :=
  match opcodeTable.find? (fun r => r.selectedBy cw) with
  | some r => .ok (r.build (argOf cw))
  | none =>
    if opcodeTable.any (fun r => r.op == opOf cw) then .error (.strayOperandBits (opOf cw))
    else .error (.reservedOpcode (opOf cw))

/-! ### The encoder, from R58 and R60 -/

/-- The operand of format B1 that carries `b`. -/
def argBit (b : Bit) : Arg := BitVec.setWidth 64 (BitVec.ofBool b)

/-- The operand of format S2 that carries the scheme. -/
def argScheme (v : Scheme) : Arg := BitVec.setWidth 64 v.code

/-- The operand of format ES: `scheme` in bits 1..0, `tb` in bits 47..16. -/
def argStart (v : Scheme) (tb : BitVec 32) : Arg := (0 : BitVec 16) ++ tb ++ (0 : BitVec 14) ++ v.code

/-- The operand of format RAT: the numerator above the denominator. -/
def argRat (num den : BitVec 32) : Arg := num ++ den

/-- The word of a command. -/
def encode : Instr → CmdWord
  | .nop => mkWord 0x00 0
  | .reset => mkWord 0x01 0
  | .clrstat n => mkWord 0x02 (BitVec.setWidth 64 n)
  | .encStart v tb => mkWord 0x10 (argStart v tb)
  | .encByte b => mkWord 0x11 (BitVec.setWidth 64 b)
  | .encBit b => mkWord 0x12 (argBit b)
  | .encRaw b => mkWord 0x13 (argBit b)
  | .encSync => mkWord 0x14 0
  | .encFlush => mkWord 0x15 0
  | .encPre n => mkWord 0x16 (BitVec.setWidth 64 n)
  | .demStart => mkWord 0x20 0
  | .demLevel b => mkWord 0x21 (argBit b)
  | .scnStart v => mkWord 0x28 (argScheme v)
  | .scnBit b => mkWord 0x29 (argBit b)
  | .scnEnd => mkWord 0x2A 0
  | .cdrfStart => mkWord 0x30 0
  | .cdrfSample b => mkWord 0x31 (argBit b)
  | .cdrfAmp b => mkWord 0x32 (BitVec.setWidth 64 b)
  | .cdrxStart => mkWord 0x38 0
  | .cdrxSample b => mkWord 0x39 (argBit b)
  | .cdrxAmp b => mkWord 0x3A (BitVec.setWidth 64 b)
  | .wrAlpha num den => mkWord 0x40 (argRat num den)
  | .wrKi num den => mkWord 0x41 (argRat num den)
  | .wrKp num den => mkWord 0x42 (argRat num den)
  | .wrIntegMax num den => mkWord 0x43 (argRat num den)
  | .wrAccSize v => mkWord 0x44 (BitVec.setWidth 64 v)
  | .wrTbC v => mkWord 0x45 (BitVec.setWidth 64 v)
  | .wrChain v => mkWord 0x46 (BitVec.setWidth 64 v)
  | .wrMarker v => mkWord 0x47 v
  | .wrMarkerLen v => mkWord 0x48 (BitVec.setWidth 64 v)
  | .rdAlpha => mkWord 0x80 0
  | .rdKi => mkWord 0x81 0
  | .rdKp => mkWord 0x82 0
  | .rdIntegMax => mkWord 0x83 0
  | .rdAccSize => mkWord 0x84 0
  | .rdTbC => mkWord 0x85 0
  | .rdChain => mkWord 0x86 0
  | .rdMarker => mkWord 0x87 0
  | .rdMarkerLen => mkWord 0x88 0
  | .rdStatus => mkWord 0x90 0
  | .rdEncState => mkWord 0x91 0
  | .rdEncTb => mkWord 0x92 0
  | .rdEncDcnt => mkWord 0x93 0
  | .rdEncCcnt => mkWord 0x94 0
  | .rdDemState => mkWord 0x95 0
  | .rdDemCnt => mkWord 0x96 0
  | .rdScnState => mkWord 0x97 0
  | .rdScnIdx => mkWord 0x98 0
  | .rdScnPos => mkWord 0x99 0
  | .rdDecNbytes => mkWord 0x9A 0
  | .rdDecDiscard => mkWord 0x9B 0
  | .rdDecDangle => mkWord 0x9C 0
  | .rdScnSr => mkWord 0x9D 0
  | .rdDecAsm => mkWord 0x9E 0
  | .rdScnEvidx => mkWord 0x9F 0
  | .rdCdrfState => mkWord 0xA0 0
  | .rdCdrfIdx => mkWord 0xA1 0
  | .rdCdrfNrec => mkWord 0xA2 0
  | .rdCdrfSat => mkWord 0xA3 0
  | .rdCdrfSatFirst => mkWord 0xA4 0
  | .rdCdrxState => mkWord 0xB0 0
  | .rdCdrxIdx => mkWord 0xB1 0
  | .rdCdrxNrec => mkWord 0xB2 0
  | .rdCdrxSat => mkWord 0xB3 0
  | .rdCdrxSatFirst => mkWord 0xB4 0
  | .rdCdrxMaxw => mkWord 0xB5 0
  | .rdCdrxFaultIdx => mkWord 0xB6 0
  | .rdCdrxFaultStep => mkWord 0xB7 0
  | .rdXAcc => mkWord 0xB8 0
  | .rdXLast => mkWord 0xB9 0
  | .rdXPd => mkWord 0xBA 0
  | .rdXPdf => mkWord 0xBB 0
  | .rdXInteg => mkWord 0xBC 0
  | .rdXFtw => mkWord 0xBD 0
  | .rdXAlpha => mkWord 0xC0 0
  | .rdXKi => mkWord 0xC1 0
  | .rdXKp => mkWord 0xC2 0
  | .rdXImax => mkWord 0xC3 0
  | .rdXAccsz => mkWord 0xC4 0
  | .rdXFtw0 => mkWord 0xC5 0

/-! ### The host's question about one word of the table -/

/-- The command word of a table row's bits: bit 0 of `w` is bit 0 of the word, and what lies above `nbits` is 0. -/
def tableWord (nbits w : Nat) : CmdWord := BitVec.ofNat 72 (w % 2 ^ nbits)

/-- The instruction this decoder reads from the word whose bits are `w`. A number that does not fit a command word
is no command word. -/
def decodeTableWord (nbits w : Nat) : Option Instr :=
  if w % 2 ^ nbits < 2 ^ 72 then (decode (tableWord nbits w)).toOption else none

end Sys2Proof
end

