-- ==== Sys2Proof/Machine/State.lean ====
section
/-! DEFINITION. Everything the block holds (spec/10_state.md), as plain data, and its reset values
(spec/70_reset_and_hazards.md R225). A register the spec calls *unwritten* is `none` (R17). Counters are unbounded
naturals, as R11 allows (log entry 3). -/

namespace Sys2Proof.Machine

/-! ### Rational registers and the system interface -/

/-- A rational register: the pair as written, `num` the two's-complement bits 63..32, `den` bits 31..0
(spec/10_state.md R14). -/
structure RatReg where
  num : BitVec 32
  den : BitVec 32
  deriving DecidableEq, Repr

/-- The configuration registers (spec/10_state.md R13). -/
structure CfgRegs where
  /-- `ALPHA`, idx 0x00. -/
  alpha : RatReg
  /-- `KI`, idx 0x01. -/
  ki : RatReg
  /-- `KP`, idx 0x02. -/
  kp : RatReg
  /-- `INTEG_MAX`, idx 0x03; `none` is unwritten (R17). -/
  integMax : Option RatReg
  /-- `ACC_SIZE`, idx 0x04; `none` is unwritten. -/
  accSize : Option (BitVec 32)
  /-- `TB_C`, idx 0x05; `none` is unwritten. -/
  tbC : Option (BitVec 32)
  /-- `CHAIN`, idx 0x06 (R16). -/
  chain : BitVec 3
  /-- `MARKER`, idx 0x07 (R15). -/
  marker : BitVec 64
  /-- `MARKER_LEN`, idx 0x08. -/
  markerLen : BitVec 7
  deriving DecidableEq, Repr

/-- A response `(st, val)` (spec/30_encoding.md R57). -/
structure Response where
  st : BitVec 8
  val : BitVec 64
  deriving DecidableEq, Repr

/-! ### ENC (spec/10_state.md R19) -/

/-- `RLL_STATE`: the data bits consumed since the last codeword. The constructors are the numbers 0 to 5 of
spec/40_line_encoders.md R78; 6 and 7 are no states of the machine (R25 c, log entry 11). -/
inductive RllState where
  /-- 0: none, the initial state. -/
  | idle
  /-- 1: `1`. -/
  | one
  /-- 2: `0`. -/
  | zero
  /-- 3: `01`. -/
  | zeroOne
  /-- 4: `00`. -/
  | zeroZero
  /-- 5: `001`. -/
  | zeroZeroOne
  deriving DecidableEq, Repr

/-- The encoder unit. -/
structure EncUnit where
  /-- `ENC_RUN`. -/
  run : Bit
  /-- `ENC_SCHEME`. -/
  scheme : Scheme
  /-- `ENC_TB`. -/
  tb : BitVec 32
  /-- `MFM_PREV`. -/
  mfmPrev : Bit
  /-- `RLL_STATE`. -/
  rllState : RllState
  /-- `NRZI_LEVEL`. -/
  nrziLevel : Bit
  /-- `ENC_DCNT`. -/
  dcnt : Nat
  /-- `ENC_CCNT`. -/
  ccnt : Nat
  deriving DecidableEq, Repr

/-! ### DEM (spec/10_state.md R21) -/

/-- The demodulator unit. -/
structure DemUnit where
  /-- `DEM_RUN`. -/
  run : Bit
  /-- `DEM_HAVE`. -/
  haveSample : Bit
  /-- `DEM_PREV`. -/
  prev : Bit
  /-- `DEM_CNT`. -/
  cnt : Nat
  deriving DecidableEq, Repr

/-! ### SCN (spec/10_state.md R22) -/

/-- `SCN_PHASE`. -/
inductive ScnPhase where
  /-- 0 IDLE. -/
  | idle
  /-- 1 SCAN: looking for the marker. -/
  | scan
  /-- 2 PAYLOAD: marker found. -/
  | payload
  /-- 3 DONE: after `SCN.END`. -/
  | done
  deriving DecidableEq, Repr

/-- The scanner and frame-decoder unit. -/
structure ScnUnit where
  /-- `SCN_PHASE`. -/
  phase : ScnPhase
  /-- `SCN_DSCHEME`. -/
  dscheme : Scheme
  /-- `SCN_M`. -/
  m : BitVec 64
  /-- `SCN_L`. -/
  l : BitVec 7
  /-- `SCN_SR`. -/
  sr : BitVec 64
  /-- `SCN_IDX`. -/
  idx : Nat
  /-- `SCN_FOUND`. -/
  found : Bit
  /-- `SCN_POS`. -/
  pos : Nat
  /-- `SCN_HALT`. -/
  halt : Bit
  /-- `PAY_IDX`. -/
  payIdx : Nat
  /-- `DEC_SHIFT`. -/
  shift : BitVec 8
  /-- `DEC_CNT`. -/
  cnt : BitVec 3
  /-- `DEC_NBYTES`. -/
  nbytes : Nat
  /-- `DEC_CBUF`. -/
  cbuf : BitVec 8
  /-- `DEC_CLEN`. -/
  clen : BitVec 4
  /-- `DEC_DISCARD`. -/
  discard : BitVec 3
  /-- `DEC_DANGLE`. -/
  dangle : BitVec 4
  /-- `SCN_EVIDX`. -/
  evidx : Nat
  deriving DecidableEq, Repr

/-! ### CDRF (spec/10_state.md R23) -/

/-- The constants `CDRF.START` latches, all six at once (log entry 8). -/
structure CdrfLatch where
  /-- `F_ACCSZ`. -/
  accsz : Nat
  /-- `F_ALPHA`. -/
  alpha : Rat
  /-- `F_KI`. -/
  ki : Rat
  /-- `F_KP`. -/
  kp : Rat
  /-- `F_IMAX`. -/
  imax : Rat
  /-- `F_FTW0`. -/
  ftw0 : Rat
  deriving DecidableEq, Repr

/-- The real-number clock-recovery loop. Its domain is the exact rationals (spec/43_cdr_float.md R141). -/
structure CdrfUnit where
  /-- `CDRF_RUN`. -/
  run : Bit
  /-- `F_ACCSZ` .. `F_FTW0`; `none` is unwritten. -/
  latch : Option CdrfLatch
  /-- `F_ACC`. -/
  acc : Rat
  /-- `F_LAST`. -/
  last : Rat
  /-- `F_PD`. -/
  pd : Rat
  /-- `F_PDF`. -/
  pdf : Rat
  /-- `F_INTEG`. -/
  integ : Rat
  /-- `F_FTW`. -/
  ftw : Rat
  /-- `F_PREV`. -/
  prev : Bit
  /-- `CDRF_IDX`. -/
  idx : Nat
  /-- `CDRF_NREC`. -/
  nrec : Nat
  /-- `CDRF_SAT`. -/
  sat : Nat
  /-- `CDRF_SAT_FIRST`. -/
  satFirst : Nat
  deriving DecidableEq, Repr

/-! ### CDRX (spec/10_state.md R24) -/

/-- The constants `CDRX.START` quantises and latches, all six at once, as integers times 2^20 (log entry 8). -/
structure CdrxLatch where
  /-- `X_ALPHA`, idx 0x40. -/
  alpha : Int
  /-- `X_KI`, idx 0x41. -/
  ki : Int
  /-- `X_KP`, idx 0x42. -/
  kp : Int
  /-- `X_IMAX`, idx 0x43. -/
  imax : Int
  /-- `X_ACCSZ`, idx 0x44. -/
  accsz : Int
  /-- `X_FTW0`, idx 0x45. -/
  ftw0 : Int
  deriving DecidableEq, Repr

/-- The fixed-point clock-recovery loop. "Every value is an integer" (R24). -/
structure CdrxUnit where
  /-- `CDRX_RUN`. -/
  run : Bit
  /-- `X_PREV`. -/
  prev : Bit
  /-- `CDRX_HALT`. -/
  halt : Bit
  /-- `CDRX_IDX`. -/
  idx : Nat
  /-- `CDRX_NREC`. -/
  nrec : Nat
  /-- `CDRX_SAT`. -/
  sat : Nat
  /-- `CDRX_SAT_FIRST`. -/
  satFirst : Nat
  /-- `CDRX_MAXW`. -/
  maxw : Nat
  /-- `CDRX_FAULT_IDX`. -/
  faultIdx : Nat
  /-- `CDRX_FAULT_STEP`. -/
  faultStep : BitVec 3
  /-- `X_ACC`. -/
  acc : Int
  /-- `X_LAST`. -/
  last : Int
  /-- `X_PD`. -/
  pd : Int
  /-- `X_PDF`. -/
  pdf : Int
  /-- `X_INTEG`. -/
  integ : Int
  /-- `X_FTW`. -/
  ftw : Int
  /-- `X_ALPHA` .. `X_FTW0`; `none` is unwritten. -/
  latch : Option CdrxLatch
  deriving DecidableEq, Repr

/-! ### The ports -/

/-- The sequences emitted on each port since hardware reset, first emission first (spec/00_scope.md R5). They are
the model's record of the outputs, no architectural state: no command reads them (log entry 7). -/
structure Ports where
  /-- `CODE`: code bits. -/
  code : List Bit
  /-- `LEVEL`: line levels. -/
  level : List Bit
  /-- `AMP`: amplitudes. -/
  amp : List Byte
  /-- `REC_F`: recovered level bits of the real-number path. -/
  recF : List Bit
  /-- `REC_X`: recovered level bits of the fixed-point path. -/
  recX : List Bit
  /-- `DEMOD`: demodulated code bits. -/
  demod : List Bit
  /-- `BYTE`: decoded octets. -/
  byte : List Byte
  deriving DecidableEq, Repr

/-! ### The whole state -/

/-- The state of the block: configuration, `STATUS` and the five units (spec/10_state.md R10), and three fields of the
model's own: the port logs, the response of the last command, and the words the host has issued. -/
structure State where
  /-- The configuration registers. -/
  cfg : CfgRegs
  /-- `STATUS`, idx 0x10 (R18). -/
  status : BitVec 64
  enc : EncUnit
  dem : DemUnit
  scn : ScnUnit
  cdrf : CdrfUnit
  cdrx : CdrxUnit
  /-- What the ports have emitted (log entry 7). -/
  ports : Ports
  /-- The response to the last command, `none` before the first (spec/30_encoding.md R57, log entry 6). -/
  response : Option Response
  /-- The command words the host has issued and the block has not accepted yet, first one first
  (spec/00_scope.md R3, log entry 5). -/
  inbox : List CmdWord
  deriving DecidableEq, Repr

/-- Which clock-recovery path: CDRF or CDRX. -/
inductive LoopPath where
  | real
  | fixed
  deriving DecidableEq, Repr

/-- Why a step stops with a fault. The spec's own events are no faults of the model: they are next states. -/
inductive Fault where
  /-- Raised by CDRF.SAMPLE, CDRF.AMP, CDRX.SAMPLE and CDRX.AMP of a unit that runs while its latched constants are
  unwritten. No run reaches such a state: "an unwritten register can never be observed"
  (spec/70_reset_and_hazards.md R225). Safe: the model stops where the spec gives no effect (log entry 9). -/
  | latchUnwritten (path : LoopPath)
  deriving DecidableEq, Repr

/-- Why the model refuses a command. -/
inductive Refusal where
  /-- Raised by `exec` for an instruction that has no meaning yet. None is left. Safe. -/
  | notModelled (mnemonic : String)
  deriving DecidableEq, Repr

namespace State

/-! ### Updates: one per field -/

/-- Replace the configuration registers. -/
def setCfg (s : State) (v : CfgRegs) : State := { s with cfg := v }

/-- Replace `STATUS`. -/
def setStatus (s : State) (v : BitVec 64) : State := { s with status := v }

/-- Replace the working state of ENC. -/
def setEnc (s : State) (v : EncUnit) : State := { s with enc := v }

/-- Replace the working state of DEM. -/
def setDem (s : State) (v : DemUnit) : State := { s with dem := v }

/-- Replace the working state of SCN. -/
def setScn (s : State) (v : ScnUnit) : State := { s with scn := v }

/-- Replace the working state of CDRF. -/
def setCdrf (s : State) (v : CdrfUnit) : State := { s with cdrf := v }

/-- Replace the working state of CDRX. -/
def setCdrx (s : State) (v : CdrxUnit) : State := { s with cdrx := v }

/-- Replace the port logs. -/
def setPorts (s : State) (v : Ports) : State := { s with ports := v }

/-- Replace the response. -/
def setResponse (s : State) (v : Option Response) : State := { s with response := v }

/-- Replace the words waiting to be accepted. -/
def setInbox (s : State) (v : List CmdWord) : State := { s with inbox := v }

/-- The state right after reset (spec/70_reset_and_hazards.md R225; the reset columns of spec/10_state.md). -/
def reset : State where
  cfg :=
    { alpha := ⟨99, 1000⟩, ki := ⟨137, 1000000⟩, kp := ⟨93, 1000⟩
      integMax := none, accSize := none, tbC := none
      chain := 0, marker := 0x4489, markerLen := 15 }
  status := 0
  enc :=
    { run := false, scheme := .direct, tb := 1, mfmPrev := false, rllState := .idle, nrziLevel := false
      dcnt := 0, ccnt := 0 }
  dem := { run := false, haveSample := false, prev := false, cnt := 0 }
  scn :=
    { phase := .idle, dscheme := .mfm, m := 0x4489, l := 15, sr := 0, idx := 0, found := false, pos := 0
      halt := false, payIdx := 0, shift := 0, cnt := 0, nbytes := 0, cbuf := 0, clen := 0
      discard := 0, dangle := 0, evidx := 0 }
  cdrf :=
    { run := false, latch := none, acc := 0, last := 0, pd := 0, pdf := 0, integ := 0, ftw := 0, prev := false
      idx := 0, nrec := 0, sat := 0, satFirst := 0 }
  cdrx :=
    { run := false, prev := false, halt := false, idx := 0, nrec := 0, sat := 0, satFirst := 0, maxw := 0
      faultIdx := 0, faultStep := 0, acc := 0, last := 0, pd := 0, pdf := 0, integ := 0, ftw := 0, latch := none }
  ports := { code := [], level := [], amp := [], recF := [], recX := [], demod := [], byte := [] }
  response := none
  inbox := []

end State

end Sys2Proof.Machine
end

