-- ==== Sys2Proof/Machine/Flags.lean ====
section
/-! DEFINITION. The flags of `STATUS` (spec/10_state.md R18), the events with their codes and flags
(spec/60_exceptions.md R201), and the tests a loop step makes on its numbers (fits, clamp, width). -/

namespace Sys2Proof.Machine

/-! ### `STATUS` -/

/-- The flags of `STATUS` (R18). -/
inductive Flag where
  | mnf
  | trunc
  | ovf
  | satf
  | satx
  | codev
  | ill
  | badop
  | badcfg
  | notrun
  | drop
  deriving DecidableEq, Repr

/-- A flag's bit number in `STATUS`. -/
def Flag.bit : Flag → Nat
  | .mnf => 0
  | .trunc => 1
  | .ovf => 2
  | .satf => 3
  | .satx => 4
  | .codev => 5
  | .ill => 6
  | .badop => 7
  | .badcfg => 8
  | .notrun => 9
  | .drop => 10

/-- `STATUS` with a flag set; the others keep their values ("sticky", R18). -/
def withFlag (f : Flag) (status : BitVec 64) : BitVec 64 := status ||| BitVec.twoPow 64 f.bit

/-- Set a flag of `STATUS`. -/
def setFlag (f : Flag) (s : State) : State := s.setStatus (withFlag f s.status)

/-- `STATUS and not zext_64(mask)` (spec/45_system_commands.md R187). -/
def clearFlags (mask : BitVec 16) (status : BitVec 64) : BitVec 64 := status &&& ~~~(mask.setWidth 64)

/-! ### Events (R201) -/

/-- The events. ClampSaturation names its path, which decides its flag. -/
inductive Event where
  | markerNotFound
  | truncatedFrame
  | numericOverflow
  | clampSaturation (path : LoopPath)
  | codeViolation
  | illegalCommand
  | badOperand
  | badConfig
  | notRunning
  deriving DecidableEq, Repr

/-- The status code of an event (R201). -/
def Event.code : Event → BitVec 8
  | .markerNotFound => 0x01
  | .truncatedFrame => 0x02
  | .numericOverflow => 0x03
  | .clampSaturation _ => 0x04
  | .codeViolation => 0x05
  | .illegalCommand => 0x10
  | .badOperand => 0x11
  | .badConfig => 0x12
  | .notRunning => 0x13

/-- The `STATUS` flag of an event (R201, R202). -/
def Event.flag : Event → Flag
  | .markerNotFound => .mnf
  | .truncatedFrame => .trunc
  | .numericOverflow => .ovf
  | .clampSaturation .real => .satf
  | .clampSaturation .fixed => .satx
  | .codeViolation => .codev
  | .illegalCommand => .ill
  | .badOperand => .badop
  | .badConfig => .badcfg
  | .notRunning => .notrun

/-! ### Number tests of the loops -/

/-- `fits(v)` for a width given as `W_FX` is (spec/00_scope.md section 6): `none` is `inf`, `some n` is `n + 1` bits. -/
def fitsIn (w : Option Nat) (v : Int) : Bool :=
  match w with
  | none => true
  | some n => decide (-(2 ^ n : Int) ≤ v) && decide (v ≤ 2 ^ n - 1)

/-- `fits(v)` at this instance's `W_FX`. -/
def fits (v : Int) : Bool := fitsIn Config.fxWidthPred v

/-- `width_s(v)`: the least `n >= 1` with `-2^(n-1) <= v < 2^(n-1)` (spec/00_scope.md section 6). The magnitude that
decides it is `v` for `v >= 0` and `-v - 1` for `v < 0`; zero magnitude takes one bit. -/
def widthS (v : Int) : Nat :=
  let mag : Nat := if 0 ≤ v then v.toNat else (-v - 1).toNat
  if mag = 0 then 1 else Nat.log2 mag + 2

/-- `clamp(x, lo, hi)` (spec/00_scope.md section 6), on integers. -/
def clampInt (x lo hi : Int) : Int := if x < lo then lo else if hi < x then hi else x

/-- `clamp(x, lo, hi)`, on rationals. -/
def clampRat (x lo hi : Rat) : Rat := if x < lo then lo else if hi < x then hi else x

/-- A sample hits the clamp when the unclamped sum `s` has `s >= imax` or `s <= -imax`
(spec/43_cdr_float.md R146). -/
def hitsClampRat (s imax : Rat) : Bool := decide (imax ≤ s) || decide (s ≤ -imax)

/-- The same on the fixed-point path (spec/44_cdr_fixed.md R168). -/
def hitsClampInt (s imax : Int) : Bool := decide (imax ≤ s) || decide (s ≤ -imax)

end Sys2Proof.Machine
end

