-- ==== Sys2Proof/Machine/Operands.lean ====
section
/-! DEFINITION. What operands and registers stand for: bit order, legal operand values, rational values,
fixed-point scaling, the values `RD` returns and the packed views. -/

namespace Sys2Proof.Machine

/-! ### Bit order (spec/20_memory.md R43, R44) -/

/-- The bits of an octet, most significant first. -/
def octetBits (b : Byte) : List Bit :=
  [b.getLsbD 7, b.getLsbD 6, b.getLsbD 5, b.getLsbD 4, b.getLsbD 3, b.getLsbD 2, b.getLsbD 1, b.getLsbD 0]

/-- The number a bit string names, its first bit the most significant. -/
def msbNat (bits : List Bit) : Nat := bits.foldl (fun n b => 2 * n + b.toNat) 0

/-- The low `n` bits of a number as a bit string, the most significant of them first. -/
def msbBits : Nat → Nat → List Bit
  | 0, _ => []
  | n + 1, v => v.testBit n :: msbBits n v

/-- The sequence a marker register and its length name: `m[i] = MARKER[L-1-i]` (spec/10_state.md R15). -/
def markerBits (marker : BitVec 64) (len : Nat) : List Bit := msbBits len marker.toNat

/-! ### Amplitudes (spec/41_nrzi.md R106, R107) -/

/-- `AMPOF(level)`. -/
def ampOf (level : Bit) : Byte := if level then Config.ampHi else Config.ampLo

/-- `SLICE(a)`: 1 iff `a > AMP_MID`. -/
def slice (a : Byte) : Bit := decide (Config.ampMid.toNat < a.toNat)

/-! ### Legal operand values (spec/30_encoding.md R59) -/

/-- `tb` of ENC.START, `v` of WR.ACC_SIZE and WR.TB_C: not 0. -/
def legalNonzero (v : BitVec 32) : Bool := v != 0

/-- A rational operand: `den != 0`. -/
def legalRat (r : RatReg) : Bool := r.den != 0

/-- The operand of WR.INTEG_MAX: `den != 0` and `num >= 0`. -/
def legalIntegMax (r : RatReg) : Bool := r.den != 0 && decide (0 ≤ r.num.toInt)

/-- The operand of WR.CHAIN: `v[1:0] != 3`. -/
def legalChain (v : BitVec 3) : Bool := v.extractLsb' 0 2 != 3

/-- The operand of WR.MARKER_LEN: 1..64. -/
def legalMarkerLen (v : BitVec 7) : Bool := decide (1 ≤ v.toNat) && decide (v.toNat ≤ 64)

/-! ### Rationals and fixed point -/

/-- The exact value `num/den` of a rational register, `num` signed (spec/10_state.md R14). -/
def RatReg.value (r : RatReg) : Rat := (r.num.toInt : Rat) / (r.den.toNat : Rat)

/-- `x mod m` on rationals: `x - m*floor(x/m)` (spec/00_scope.md section 6). -/
def ratMod (x m : Rat) : Rat := x - m * ((⌊x / m⌋ : Int) : Rat)

/-- `2^FRAC`, the fixed-point one. -/
def fxOne : Int := 2 ^ Config.frac

/-- `x >> 20`: the arithmetic shift, `floor(x / 2^20)` for either sign (spec/00_scope.md section 6). -/
def fxShift (x : Int) : Int := x / fxOne

/-- The product of two scaled integers brought back to 20 fractional bits (spec/44_cdr_fixed.md R160). -/
def fxMul (a b : Int) : Int := fxShift (a * b)

/-- `Xq = floor(num * 2^20 / den)` (spec/44_cdr_fixed.md R161). -/
def quantise (r : RatReg) : Int := (r.num.toInt * fxOne) / (r.den.toNat : Int)

/-! ### What `RD` returns (spec/45_system_commands.md R189, spec/20_memory.md R45) -/

/-- `value64` of a rational register: the pair packed as it was written. -/
def valueRat (r : RatReg) : BitVec 64 := r.num ++ r.den

/-- `value64` of an unsigned register: zero-extended. -/
def valueBits {n : Nat} (v : BitVec n) : BitVec 64 := v.setWidth 64

/-- `value64` of a counter (log entry 3). -/
def valueNat (n : Nat) : BitVec 64 := BitVec.ofNat 64 n

/-- `value64` of a fixed-point register: sign-extended, or its low 64 bits if wider. -/
def valueFx (v : Int) : BitVec 64 := BitVec.ofInt 64 v

/-- The three-bit number of an RLL27 state (spec/40_line_encoders.md R78). -/
def RllState.code : RllState → BitVec 3
  | .idle => 0
  | .one => 1
  | .zero => 2
  | .zeroOne => 3
  | .zeroZero => 4
  | .zeroZeroOne => 5

/-- The two-bit number of a scanner phase (spec/10_state.md R22). -/
def ScnPhase.code : ScnPhase → BitVec 2
  | .idle => 0
  | .scan => 1
  | .payload => 2
  | .done => 3

/-- `ENC_STATE`: run bit 0, scheme 2..1, `MFM_PREV` 3, `RLL_STATE` 6..4, `NRZI_LEVEL` 7 (spec/10_state.md R19). -/
def viewEncState (u : EncUnit) : BitVec 64 :=
  (0 : BitVec 56) ++ BitVec.ofBool u.nrziLevel ++ u.rllState.code ++ BitVec.ofBool u.mfmPrev ++ u.scheme.code
    ++ BitVec.ofBool u.run

/-- `DEM_STATE`: run bit 0, have 1, previous sample 2 (spec/10_state.md R21). -/
def viewDemState (u : DemUnit) : BitVec 64 :=
  (0 : BitVec 61) ++ BitVec.ofBool u.prev ++ BitVec.ofBool u.haveSample ++ BitVec.ofBool u.run

/-- `SCN_STATE`: phase 1..0, payload scheme 3..2, found 4, halt 5 (spec/10_state.md R22). -/
def viewScnState (u : ScnUnit) : BitVec 64 :=
  (0 : BitVec 58) ++ BitVec.ofBool u.halt ++ BitVec.ofBool u.found ++ u.dscheme.code ++ u.phase.code

/-- `DEC_ASM`: `DEC_SHIFT` 7..0, `DEC_CNT` 10..8, `DEC_CLEN` 14..11, `DEC_CBUF` 22..15 (spec/10_state.md R22). -/
def viewDecAsm (u : ScnUnit) : BitVec 64 := (0 : BitVec 41) ++ u.cbuf ++ u.clen ++ u.cnt ++ u.shift

/-- `CDRF_STATE`: run bit 0, previous input bit 1 (spec/10_state.md R23). -/
def viewCdrfState (u : CdrfUnit) : BitVec 64 := (0 : BitVec 62) ++ BitVec.ofBool u.prev ++ BitVec.ofBool u.run

/-- `CDRX_STATE`: run bit 0, previous input bit 1, halt 2 (spec/10_state.md R24). -/
def viewCdrxState (u : CdrxUnit) : BitVec 64 :=
  (0 : BitVec 61) ++ BitVec.ofBool u.halt ++ BitVec.ofBool u.prev ++ BitVec.ofBool u.run

end Sys2Proof.Machine
end

