-- ==== Sys2Proof/Machine/Ops.lean ====
section
/-! DEFINITION. The operations commands share: responding, raising and noting an event (this block's "taking an
exception", spec/60_exceptions.md R200, R203, R213), emitting on a port, reading and writing registers, accepting a
command word. There is no return operation to define: "There is no return instruction" (R214). -/

namespace Sys2Proof.Machine

/-- How a step of the block ends. -/
abbrev StepOutcome := Host.Outcome State Fault Refusal

/-! ### Responses and events -/

/-- The response `(OK, 0)`, a command's response unless its rule says otherwise (spec/30_encoding.md R57). -/
def okResponse : Response := ⟨0x00, 0⟩

/-- The response of an event: its code and value (R201). The value is a counter or an index, at most 64 bits
(log entry 3). -/
def eventResponse (e : Event) (info : Nat) : Response := ⟨e.code, BitVec.ofNat 64 info⟩

/-- `raise E(info)`: set the event's `STATUS` bit and set the response; the command ends there, and the state changes
already made stand (R203). No register is saved, no control transfers (R213). -/
def raise (e : Event) (info : Nat) (s : State) : State :=
  (setFlag e.flag s).setResponse (some (eventResponse e info))

/-- `note E(info)`: set the event's `STATUS` bit and remember its response as the pending one, unless one is pending
already: "the first noted wins" (R203). -/
def note (e : Event) (info : Nat) (pending : Option Response) (s : State) : State × Option Response :=
  (setFlag e.flag s, some (pending.getD (eventResponse e info)))

/-- `respond(st, val)`: the pending response is returned instead, if there is one (R203). -/
def respond (pending : Option Response) (r : Response) (s : State) : State :=
  s.setResponse (some (pending.getD r))

/-- Where the pseudocode of a command stands: still running, or ended by a `raise`. -/
inductive Progress where
  | running (s : State)
  | ended (s : State)
  deriving DecidableEq, Repr

/-- The end of a command: `respond(OK, 0)` if nothing was raised. -/
def finish (pending : Option Response) (p : Progress) : StepOutcome :=
  match p with
  | .running s => .next (respond pending okResponse s)
  | .ended s => .next s

/-- A command that ends with `respond(OK, 0)` in the state `s`. -/
def done (s : State) : StepOutcome := .next (respond none okResponse s)

/-- A command that ends by raising the event in the state `s`. A refusal (R209, R210) raises it in the state the command
began in, so that nothing else changes. -/
def raised (e : Event) (info : Nat) (s : State) : StepOutcome := .next (raise e info s)

/-! ### Emission (spec/00_scope.md R5): append to the port's sequence -/

/-- `emit CODE, c`. -/
def emitCode (c : Bit) (s : State) : State := s.setPorts { s.ports with code := s.ports.code ++ [c] }

/-- `repeat tb times: emit LEVEL, lvl; emit AMP, AMPOF(lvl)` (spec/41_nrzi.md R101). -/
def emitLevels (tb : Nat) (lvl : Bit) (s : State) : State :=
  s.setPorts { s.ports with
    level := s.ports.level ++ List.replicate tb lvl
    amp := s.ports.amp ++ List.replicate tb (ampOf lvl) }

/-- `emit REC_F, b`. -/
def emitRecF (b : Bit) (s : State) : State := s.setPorts { s.ports with recF := s.ports.recF ++ [b] }

/-- `emit REC_X, b`. -/
def emitRecX (b : Bit) (s : State) : State := s.setPorts { s.ports with recX := s.ports.recX ++ [b] }

/-- `emit DEMOD, c`. -/
def emitDemod (c : Bit) (s : State) : State := s.setPorts { s.ports with demod := s.ports.demod ++ [c] }

/-- `emit BYTE, b`. -/
def emitByte (b : Byte) (s : State) : State := s.setPorts { s.ports with byte := s.ports.byte ++ [b] }

/-! ### Register access (spec/45_system_commands.md R188, R189) -/

/-- `RD.<reg>`: the register's value, or BadConfig with its index if it is unwritten (R189). -/
def readReg (idx : Nat) (value : Option (BitVec 64)) (s : State) : StepOutcome :=
  match value with
  | some v => .next (respond none ⟨0x00, v⟩ s)
  | none => raised .badConfig idx s

/-- `WR.<reg>`: store the new configuration, or BadOperand with the opcode if the value is illegal (R188). -/
def writeReg (op : Nat) (legal : Bool) (cfg : CfgRegs) (s : State) : StepOutcome :=
  if legal then done (s.setCfg cfg) else raised .badOperand op s

/-- `INTEG_MAX`, `ACC_SIZE` and `TB_C`, or the index of the lowest-numbered unwritten one of the three: 3, 4 or 5
(spec/43_cdr_float.md R143, spec/44_cdr_fixed.md R162). -/
def loopConfig (c : CfgRegs) : Except Nat (RatReg × BitVec 32 × BitVec 32) :=
  match c.integMax, c.accSize, c.tbC with
  | none, _, _ => .error 3
  | some _, none, _ => .error 4
  | some _, some _, none => .error 5
  | some im, some az, some tb => .ok (im, az, tb)

/-! ### Accepting a command word (spec/00_scope.md R3, spec/30_encoding.md R61) -/

/-- The next word the host has issued and the state with that word accepted; `none` while there is none. -/
def fetch (s : State) : Option (CmdWord × State) :=
  match s.inbox with
  | [] => none
  | cw :: rest => some (cw, s.setInbox rest)

/-- A word that matches no row: IllegalCommand with the opcode byte, nothing else changes (R61). -/
def illegalCommand (e : DecodeError) (s : State) : StepOutcome := raised .illegalCommand e.op.toNat s

end Sys2Proof.Machine
end

