-- ==== Sys2Proof/Machine/Scn.lean ====
section
/-! DEFINITION. The sync-marker scanner and frame decoder, and the SCN commands (spec/42_sync_frame.md). -/

namespace Sys2Proof.Machine

/-! ### The payload decoder -/

/-- Data pattern and codeword of RLL27 (spec/40_line_encoders.md R77, spec/42_sync_frame.md R125). -/
def rllTable : List (List Bit × List Bit) := [
  ([true, true], [false, true, false, false]),
  ([true, false], [true, false, false, false]),
  ([false, true, true], [true, false, false, true, false, false]),
  ([false, true, false], [false, false, true, false, false, false]),
  ([false, false, false], [false, false, false, true, false, false]),
  ([false, false, true, false], [false, false, true, false, false, true, false, false]),
  ([false, false, true, true], [false, false, false, false, true, false, false, false])]

/-- `pattern(buf)`, if `buf` is a codeword (R125). -/
def rllPattern (buf : List Bit) : Option (List Bit) :=
  (rllTable.find? (fun r => r.2 == buf)).map (fun r => r.1)

/-- "`buf` is in PREFIXES": a proper non-empty prefix of a codeword (R125). -/
def isRllPrefix (buf : List Bit) : Bool :=
  !buf.isEmpty && rllTable.any (fun r => buf.isPrefixOf r.2 && buf != r.2)

/-- The code bits collected so far, first collected first: `DEC_CBUF` holds them "as a number, the first collected bit
most significant" (R125). -/
def collectedBits (u : ScnUnit) : List Bit := msbBits u.clen.toNat u.cbuf.toNat

/-- `DATABIT(d)`: the octet assembler (R122). -/
def dataBit (d : Bit) (s : State) : State :=
  let shifted : BitVec 8 := (s.scn.shift <<< 1) ||| BitVec.setWidth 8 (BitVec.ofBool d)
  if s.scn.cnt = 7 then
    (emitByte shifted s).setScn { s.scn with nbytes := s.scn.nbytes + 1, shift := 0, cnt := 0 }
  else s.setScn { s.scn with shift := shifted, cnt := s.scn.cnt + 1 }

/-- `for each d of ds in order: DATABIT(d)`. -/
def dataBits (ds : List Bit) (s : State) : State := ds.foldl (fun t d => dataBit d t) s

/-- `RLLDEC(c)` (R125): replace a codeword by its pattern, keep a prefix, or raise CodeViolation and halt. -/
def rllDecode (c : Bit) (s : State) : Progress :=
  let buf := collectedBits s.scn ++ [c]
  match rllPattern buf with
  | some pat =>
    let t := dataBits pat s
    .running (t.setScn { t.scn with cbuf := 0, clen := 0 })
  | none =>
    if isRllPrefix buf then
      .running (s.setScn { s.scn with cbuf := BitVec.ofNat 8 (msbNat buf), clen := s.scn.clen + 1 })
    else .ended (raise .codeViolation s.scn.idx (s.setScn { s.scn with halt := true, evidx := s.scn.idx }))

/-- `PAY_IDX <- PAY_IDX + 1`. -/
def countPayload (s : State) : State := s.setScn { s.scn with payIdx := s.scn.payIdx + 1 }

/-- `PAYSTEP(c)`: one payload code bit under the payload scheme (R121, R123, R124). -/
def payStep (c : Bit) (s : State) : Progress :=
  match s.scn.dscheme with
  | .fm | .mfm => .running (countPayload (if s.scn.payIdx % 2 = 1 then dataBit c s else s))
  | .direct => .running (countPayload (dataBit c s))
  | .rll27 =>
    match rllDecode c s with
    | .running t => .running (countPayload t)
    | .ended t => .ended t

/-! ### The scanner -/

/-- `((SCN_SR << 1) + c) mod 2^L` (R117). -/
def shiftIn (sr : BitVec 64) (c : Bit) (len : Nat) : BitVec 64 := BitVec.ofNat 64 ((2 * sr.toNat + c.toNat) % 2 ^ len)

/-- A code bit while scanning for the marker (R117, `SCN_PHASE = 1`). -/
def scanBit (c : Bit) (u : ScnUnit) : ScnUnit :=
  let sr := shiftIn u.sr c u.l.toNat
  if u.l.toNat ≤ u.idx + 1 ∧ sr.toNat = u.m.toNat % 2 ^ u.l.toNat then
    { u with sr := sr, idx := u.idx + 1, found := true, pos := u.idx + 1, phase := .payload }
  else { u with sr := sr, idx := u.idx + 1 }

/-- `SCN_IDX <- SCN_IDX + 1`. -/
def countCodeBit (s : State) : State := s.setScn { s.scn with idx := s.scn.idx + 1 }

/-- `SCNSTEP(c)` (R117). It is entered in the phases SCAN and PAYLOAD only. -/
def scnStep (c : Bit) (s : State) : Progress :=
  if s.scn.phase = .scan then .running (s.setScn (scanBit c s.scn))
  else
    match payStep c s with
    | .running t => .running (countCodeBit t)
    | .ended t => .ended t

/-- `SCN_RUN`: `SCN_PHASE in {1, 2} and SCN_HALT = 0` (spec/10_state.md R22). -/
def scnRunning (u : ScnUnit) : Bool := (u.phase == .scan || u.phase == .payload) && !u.halt

/-- `FORWARD_SCN(c)` (spec/41_nrzi.md R110): a step of the scanner if it runs, else the value is dropped. -/
def forwardScn (c : Bit) (s : State) : Progress :=
  if scnRunning s.scn then scnStep c s else .running (setFlag .drop s)

/-! ### The SCN commands -/

/-- `SCN.START scheme` (R116). -/
def execScnStart (scheme : Scheme) (s : State) : StepOutcome :=
  done (s.setScn
    { phase := .scan, dscheme := scheme, m := s.cfg.marker, l := s.cfg.markerLen, sr := 0, idx := 0, found := false
      pos := 0, halt := false, payIdx := 0, shift := 0, cnt := 0, nbytes := 0, cbuf := 0, clen := 0
      discard := 0, dangle := 0, evidx := 0 })

/-- `SCN.BIT c` (R117). -/
def execScnBit (c : Bit) (s : State) : StepOutcome :=
  if scnRunning s.scn then finish none (scnStep c s) else raised .notRunning 0 s

/-- `DEC_DANGLE` at the end of the stream: payload code bits that belonged to no complete data bit (R127). -/
def dangling (u : ScnUnit) : BitVec 4 :=
  match u.dscheme with
  | .direct => 0
  | .fm | .mfm => BitVec.ofNat 4 (u.payIdx % 2)
  | .rll27 => u.clen

/-- `SCN.END` (R127). -/
def execScnEnd (s : State) : StepOutcome :=
  match s.scn.phase with
  | .scan => raised .markerNotFound s.scn.idx (s.setScn { s.scn with evidx := s.scn.idx, phase := .done })
  | .payload =>
    let u := { s.scn with discard := s.scn.cnt, dangle := dangling s.scn, phase := .done }
    if u.discard = 0 then done (s.setScn u)
    else raised .truncatedFrame u.discard.toNat (s.setScn { u with evidx := u.idx })
  | .idle | .done => raised .notRunning 0 s

end Sys2Proof.Machine
end

