-- ==== Sys2Proof/Machine/Dem.lean ====
section
/-! DEFINITION. The NRZI demodulator and the DEM commands (spec/41_nrzi.md R108 to R110). -/

namespace Sys2Proof.Machine

/-- `CHAIN[2] = 1`: DEM feeds SCN (spec/10_state.md R16). -/
def chainsScn (c : CfgRegs) : Bool := c.chain.getLsbD 2

/-- `CHAIN[1:0]`: the loop path that feeds DEM, 1 CDRF, 2 CDRX (spec/10_state.md R16). -/
def chainSource (c : CfgRegs) : Option LoopPath :=
  if c.chain.extractLsb' 0 2 = 1 then some .real
  else if c.chain.extractLsb' 0 2 = 2 then some .fixed
  else none

/-- `DEMSTEP(l)` (R109): the first sample is only remembered; a later one emits whether it differs from the one before.
The forwarding to SCN comes last. -/
def demStep (l : Bit) (s : State) : Progress :=
  let c := s.dem.prev ^^ l
  let u := { s.dem with prev := l, haveSample := true }
  if s.dem.haveSample then
    let t := emitDemod c (s.setDem { u with cnt := u.cnt + 1 })
    if chainsScn t.cfg then forwardScn c t else .running t
  else .running (s.setDem u)

/-- `FORWARD_DEM(b)` (R110). -/
def forwardDem (b : Bit) (s : State) : Progress :=
  if s.dem.run then demStep b s else .running (setFlag .drop s)

/-- `DEM.START` (R108). -/
def execDemStart (s : State) : StepOutcome :=
  done (s.setDem { run := true, haveSample := false, prev := false, cnt := 0 })

/-- `DEM.LEVEL l` (R109). -/
def execDemLevel (l : Bit) (s : State) : StepOutcome :=
  if s.dem.run then finish none (demStep l s) else raised .notRunning 0 s

end Sys2Proof.Machine
end

