-- ==== Sys2Proof/Machine/Cdrf.lean ====
section
/-! DEFINITION. The clock-recovery loop on the real-number path, and the CDRF commands (spec/43_cdr_float.md).
All arithmetic is exact on the rationals (R141). -/

namespace Sys2Proof.Machine

/-! ### The numbers of one sample (R144, steps 1 to 7) -/

/-- Step 1: `phase_delta`, recorded on a transition and held otherwise (R145 c). -/
def realPd (k : CdrfLatch) (b : Bit) (u : CdrfUnit) : Rat :=
  if b != u.prev then (k.accsz : Rat) / 2 - u.acc else u.pd

/-- Step 2: the accumulator wrapped since the previous sample. -/
def realWraps (u : CdrfUnit) : Bool := decide (u.acc < u.last)

/-- Step 4: `phase_delta_filtered`. -/
def realPdf (k : CdrfLatch) (b : Bit) (u : CdrfUnit) : Rat := realPd k b u * k.alpha + u.pdf * (1 - k.alpha)

/-- Step 5: the integral sum before the clamp. -/
def realSum (k : CdrfLatch) (b : Bit) (u : CdrfUnit) : Rat := u.integ + realPdf k b u * k.ki

/-- Step 5: the clamped integral. -/
def realInteg (k : CdrfLatch) (b : Bit) (u : CdrfUnit) : Rat := clampRat (realSum k b u) (-k.imax) k.imax

/-- Step 6: the tuning word, from the new filtered error and the clamped integral (R145 d). -/
def realFtw (k : CdrfLatch) (b : Bit) (u : CdrfUnit) : Rat := k.ftw0 + realPdf k b u * k.kp + realInteg k b u

/-- Step 5: the sample hits the clamp (R146). -/
def realHits (k : CdrfLatch) (b : Bit) (u : CdrfUnit) : Bool := hitsClampRat (realSum k b u) k.imax

/-- The unit after one sample (R144). -/
def realSample (k : CdrfLatch) (b : Bit) (u : CdrfUnit) : CdrfUnit :=
  { u with
    pd := realPd k b u
    nrec := if realWraps u then u.nrec + 1 else u.nrec
    last := u.acc
    pdf := realPdf k b u
    satFirst := if realHits k b u && u.sat == 0 then u.idx else u.satFirst
    sat := if realHits k b u then u.sat + 1 else u.sat
    integ := realInteg k b u
    ftw := realFtw k b u
    prev := b
    acc := ratMod (u.acc + realFtw k b u) (k.accsz : Rat)
    idx := u.idx + 1 }

/-- `CDRFSTEP(b)` (R144) to the end of the unit's own step: the state with REC_F emitted and the unit advanced, and the
pending response if ClampSaturation was noted. -/
def realAdvance (k : CdrfLatch) (b : Bit) (s : State) : State × Option Response :=
  let t := if realWraps s.cdrf then emitRecF b s else s
  let v := t.setCdrf (realSample k b s.cdrf)
  if realHits k b s.cdrf then note (.clampSaturation .real) s.cdrf.idx none v else (v, none)

/-- `CDRFSTEP(b)` (R144) and the end of the command: the recovered bit, if there is one, is forwarded last
(spec/10_state.md R16). -/
def realStep (k : CdrfLatch) (b : Bit) (s : State) : StepOutcome :=
  let r := realAdvance k b s
  finish r.2
    (if realWraps s.cdrf && chainSource s.cfg == some .real then forwardDem b r.1 else .running r.1)

/-- A sample command of CDRF: NotRunning if the unit does not run (R210). A running unit whose constants are unwritten
is no state any run reaches; the model stops there (log entry 9). -/
def realCommand (b : Bit) (s : State) : StepOutcome :=
  if s.cdrf.run then
    match s.cdrf.latch with
    | some k => realStep k b s
    | none => .fault (.latchUnwritten .real)
  else raised .notRunning 0 s

/-! ### The CDRF commands -/

/-- The constants `CDRF.START` latches (R142, R143): `F_FTW0 = 2 * ACC_SIZE / TB_C`. -/
def realLatch (c : CfgRegs) (im : RatReg) (az tb : BitVec 32) : CdrfLatch where
  accsz := az.toNat
  alpha := c.alpha.value
  ki := c.ki.value
  kp := c.kp.value
  imax := im.value
  ftw0 := 2 * (az.toNat : Rat) / (tb.toNat : Rat)

/-- `CDRF.START` (R143). -/
def execCdrfStart (s : State) : StepOutcome :=
  match loopConfig s.cfg with
  | .error i => raised .badConfig i s
  | .ok (im, az, tb) =>
    let k := realLatch s.cfg im az tb
    done (s.setCdrf
      { run := true, latch := some k, acc := 0, last := 0, pd := 0, pdf := 0, integ := 0, ftw := k.ftw0, prev := false
        idx := 0, nrec := 0, sat := 0, satFirst := 0 })

/-- `CDRF.SAMPLE b` (R144). -/
def execCdrfSample (b : Bit) (s : State) : StepOutcome := realCommand b s

/-- `CDRF.AMP a`: CDRF.SAMPLE of the sliced amplitude (R150). -/
def execCdrfAmp (a : Byte) (s : State) : StepOutcome := realCommand (slice a) s

end Sys2Proof.Machine
end

