-- ==== Sys2Proof/Machine/Cdrx.lean ====
section
/-! DEFINITION. The clock-recovery loop on the fixed-point path, and the CDRX commands (spec/44_cdr_fixed.md).
The register width is an argument `w` of the step (`none` is `inf`, `some n` is `n + 1` bits); the commands give it this
block's `W_FX`. -/

namespace Sys2Proof.Machine

/-! ### The numbers of one sample (R163): locals, exact integers -/

/-- Step 1. -/
def fixedPd (k : CdrxLatch) (b : Bit) (u : CdrxUnit) : Int := if b != u.prev then k.accsz / 2 - u.acc else u.pd

/-- Step 2: the decision. -/
def fixedWraps (u : CdrxUnit) : Bool := decide (u.acc < u.last)

/-- Step 4: two products, each shifted on its own, then added. -/
def fixedPdf (k : CdrxLatch) (b : Bit) (u : CdrxUnit) : Int :=
  fxMul (fixedPd k b u) k.alpha + fxMul u.pdf (fxOne - k.alpha)

/-- Step 5: the integral sum before the clamp. -/
def fixedSum (k : CdrxLatch) (b : Bit) (u : CdrxUnit) : Int := u.integ + fxMul (fixedPdf k b u) k.ki

/-- Step 5: the clamped integral. -/
def fixedInteg (k : CdrxLatch) (b : Bit) (u : CdrxUnit) : Int := clampInt (fixedSum k b u) (-k.imax) k.imax

/-- Step 5: the sample hits the clamp (R168). -/
def fixedHits (k : CdrxLatch) (b : Bit) (u : CdrxUnit) : Bool := hitsClampInt (fixedSum k b u) k.imax

/-- Step 6: the tuning word. -/
def fixedFtw (k : CdrxLatch) (b : Bit) (u : CdrxUnit) : Int :=
  k.ftw0 + fxMul (fixedPdf k b u) k.kp + fixedInteg k b u

/-- Step 7: `acc + ftw`, before the modulus. -/
def fixedNextAcc (k : CdrxLatch) (b : Bit) (u : CdrxUnit) : Int := u.acc + fixedFtw k b u

/-- The first step, in step order, whose value does not fit (R163, R166). -/
def fixedOverflow (w : Option Nat) (k : CdrxLatch) (b : Bit) (u : CdrxUnit) : Option (BitVec 3) :=
  if !fitsIn w (fixedPdf k b u) then some 4
  else if !fitsIn w (fixedSum k b u) then some 5
  else if !fitsIn w (fixedFtw k b u) then some 6
  else if !fitsIn w (fixedNextAcc k b u) then some 7
  else none

/-- The unit after a committed sample (R163, R167). -/
def fixedSample (k : CdrxLatch) (b : Bit) (u : CdrxUnit) : CdrxUnit :=
  { u with
    pd := fixedPd k b u
    nrec := if fixedWraps u then u.nrec + 1 else u.nrec
    last := u.acc
    pdf := fixedPdf k b u
    maxw := max u.maxw (widthS (fixedPdf k b u))
    satFirst := if fixedHits k b u && u.sat == 0 then u.idx else u.satFirst
    sat := if fixedHits k b u then u.sat + 1 else u.sat
    integ := fixedInteg k b u
    ftw := fixedFtw k b u
    prev := b
    acc := fixedNextAcc k b u % k.accsz
    idx := u.idx + 1 }

/-- The commit of a sample to the end of the unit's own step, and the pending response. -/
def fixedAdvance (k : CdrxLatch) (b : Bit) (s : State) : State × Option Response :=
  let t := if fixedWraps s.cdrx then emitRecX b s else s
  let v := t.setCdrx (fixedSample k b s.cdrx)
  if fixedHits k b s.cdrx then note (.clampSaturation .fixed) s.cdrx.idx none v else (v, none)

/-- `OVERFLOW(i, step)`: NumericOverflow; the sample is not executed and the unit halts (R166). -/
def fixedFault (step : BitVec 3) (s : State) : StepOutcome :=
  raised .numericOverflow s.cdrx.idx
    (s.setCdrx { s.cdrx with halt := true, faultIdx := s.cdrx.idx, faultStep := step })

/-- `CDRXSTEP(b)` (R163) and the end of the command. -/
def fixedStep (w : Option Nat) (k : CdrxLatch) (b : Bit) (s : State) : StepOutcome :=
  match fixedOverflow w k b s.cdrx with
  | some step => fixedFault step s
  | none =>
    let r := fixedAdvance k b s
    finish r.2
      (if fixedWraps s.cdrx && chainSource s.cfg == some .fixed then forwardDem b r.1 else .running r.1)

/-- A sample command of CDRX: NotRunning if the unit does not run or is halted (R163, R210). As on the other path, a
running unit with unwritten constants stops the model (log entry 9). -/
def fixedCommand (w : Option Nat) (b : Bit) (s : State) : StepOutcome :=
  if s.cdrx.run && !s.cdrx.halt then
    match s.cdrx.latch with
    | some k => fixedStep w k b s
    | none => .fault (.latchUnwritten .fixed)
  else raised .notRunning 0 s

/-! ### The CDRX commands -/

/-- The constants `CDRX.START` quantises and latches (R161). -/
def fixedLatch (c : CfgRegs) (im : RatReg) (az tb : BitVec 32) : CdrxLatch where
  alpha := quantise c.alpha
  ki := quantise c.ki
  kp := quantise c.kp
  imax := quantise im
  accsz := (az.toNat : Int) * fxOne
  ftw0 := (2 * (az.toNat : Int) * fxOne) / (tb.toNat : Int)

/-- The index 0x40..0x45 of the first latched constant that does not fit (R162). -/
def firstUnfit (w : Option Nat) (k : CdrxLatch) : Option Nat :=
  if !fitsIn w k.alpha then some 0x40
  else if !fitsIn w k.ki then some 0x41
  else if !fitsIn w k.kp then some 0x42
  else if !fitsIn w k.imax then some 0x43
  else if !fitsIn w k.accsz then some 0x44
  else if !fitsIn w k.ftw0 then some 0x45
  else none

/-- `CDRX.START` at width `w` (R162). -/
def fixedStart (w : Option Nat) (s : State) : StepOutcome :=
  match loopConfig s.cfg with
  | .error i => raised .badConfig i s
  | .ok (im, az, tb) =>
    let k := fixedLatch s.cfg im az tb
    match firstUnfit w k with
    | some j => raised .badConfig j s
    | none =>
      done (s.setCdrx
        { run := true, prev := false, halt := false, idx := 0, nrec := 0, sat := 0, satFirst := 0, maxw := 0
          faultIdx := 0, faultStep := 0, acc := 0, last := 0, pd := 0, pdf := 0, integ := 0, ftw := k.ftw0
          latch := some k })

/-- `CDRX.START` (R162). -/
def execCdrxStart (s : State) : StepOutcome := fixedStart Config.fxWidthPred s

/-- `CDRX.SAMPLE b` (R163). -/
def execCdrxSample (b : Bit) (s : State) : StepOutcome := fixedCommand Config.fxWidthPred b s

/-- `CDRX.AMP a`: CDRX.SAMPLE of the sliced amplitude (R170). -/
def execCdrxAmp (a : Byte) (s : State) : StepOutcome := fixedCommand Config.fxWidthPred (slice a) s

end Sys2Proof.Machine
end

