-- ==== Sys2Proof/Machine/Enc.lean ====
section
/-! DEFINITION. The line encoders Direct, FM, MFM, RLL27, the NRZI modulator inside ENC, and the ENC commands
(spec/40_line_encoders.md, spec/41_nrzi.md R101). -/

namespace Sys2Proof.Machine

/-! ### The line encoders as transducers -/

/-- `LE_Direct` (R72). -/
def leDirect (d : Bit) : List Bit := [d]

/-- `LE_FM` (R73): a clock bit 1, then the data bit. -/
def leFm (d : Bit) : List Bit := [true, d]

/-- `LE_MFM` (R75): the clock bit is `1 - prev` when `d = 0`, else 0; the new previous bit is `d`. -/
def leMfm (prev d : Bit) : Bit × List Bit := (d, [if d then false else !prev, d])

/-- `LE_RLL27` (R78): the next state and the codeword emitted, empty if none. -/
def leRll : RllState → Bit → RllState × List Bit
  | .idle, false => (.zero, [])
  | .idle, true => (.one, [])
  | .one, false => (.idle, [true, false, false, false])
  | .one, true => (.idle, [false, true, false, false])
  | .zero, false => (.zeroZero, [])
  | .zero, true => (.zeroOne, [])
  | .zeroOne, false => (.idle, [false, false, true, false, false, false])
  | .zeroOne, true => (.idle, [true, false, false, true, false, false])
  | .zeroZero, false => (.idle, [false, false, false, true, false, false])
  | .zeroZero, true => (.zeroZeroOne, [])
  | .zeroZeroOne, false => (.idle, [false, false, true, false, false, true, false, false])
  | .zeroZeroOne, true => (.idle, [false, false, false, false, true, false, false, false])

/-- The flush loop of RLL27 (R79): implicit 0 data bits until the state is the initial one. The argument bounds the
loop; "the loop runs at most twice". -/
def rllFlushLoop : Nat → RllState → RllState × List Bit
  | 0, st => (st, [])
  | n + 1, st =>
    if st = .idle then (st, [])
    else
      let r := rllFlushLoop n (leRll st false).1
      (r.1, (leRll st false).2 ++ r.2)

/-- `LEFLUSH_RLL27`: the flush with its bound of two. -/
def rllFlush (st : RllState) : RllState × List Bit := rllFlushLoop 2 st

/-- One data bit through the line encoder of the unit's scheme: the new encoder state and the code bits
(R81, the case distinction of `ENCBIT`). -/
def lineStep (u : EncUnit) (d : Bit) : EncUnit × List Bit :=
  match u.scheme with
  | .direct => (u, leDirect d)
  | .fm => (u, leFm d)
  | .mfm => ({ u with mfmPrev := (leMfm u.mfmPrev d).1 }, (leMfm u.mfmPrev d).2)
  | .rll27 => ({ u with rllState := (leRll u.rllState d).1 }, (leRll u.rllState d).2)

/-- The end-of-input step of the unit's scheme (R71, R79): only RLL27 holds anything back. -/
def lineFlush (u : EncUnit) : EncUnit × List Bit :=
  match u.scheme with
  | .direct | .fm | .mfm => (u, [])
  | .rll27 => ({ u with rllState := (rllFlush u.rllState).1 }, (rllFlush u.rllState).2)

/-! ### The unit's steps -/

/-- `MODULATE(c)` (spec/41_nrzi.md R101): toggle on 1, count, repeat the level `ENC_TB` times on LEVEL and AMP. -/
def modulateBit (c : Bit) (s : State) : State :=
  let lvl := s.enc.nrziLevel ^^ c
  emitLevels s.enc.tb.toNat lvl (s.setEnc { s.enc with nrziLevel := lvl, ccnt := s.enc.ccnt + 1 })

/-- `PUSHCODE(c)` (R81). -/
def pushCode (c : Bit) (s : State) : State := modulateBit c (emitCode c s)

/-- `for each c of cb in order: PUSHCODE(c)`. -/
def pushCodes (cb : List Bit) (s : State) : State := cb.foldl (fun t c => pushCode c t) s

/-- `ENCBIT(d)` (R81). -/
def encodeBit (d : Bit) (s : State) : State :=
  let r := lineStep s.enc d
  pushCodes r.2 (s.setEnc { r.1 with dcnt := r.1.dcnt + 1 })

/-- The bits of one octet, most significant first, each by `ENCBIT` (R82). -/
def encodeOctet (b : Byte) (s : State) : State := (octetBits b).foldl (fun t d => encodeBit d t) s

/-- `FLUSH()` (R79). The implicit zero bits are not counted in `ENC_DCNT`. -/
def flushLine (s : State) : State :=
  let r := lineFlush s.enc
  pushCodes r.2 (s.setEnc r.1)

/-- The guard of the ENC data commands: NotRunning if `ENC_RUN = 0` (R210), else the command's effect. -/
def encCommand (effect : State → State) (s : State) : StepOutcome :=
  if s.enc.run then done (effect s) else raised .notRunning 0 s

/-! ### The ENC commands -/

/-- `ENC.START scheme, tb` (R80). -/
def execEncStart (scheme : Scheme) (tb : BitVec 32) (s : State) : StepOutcome :=
  if legalNonzero tb then
    done (s.setEnc
      { run := true, scheme := scheme, tb := tb, mfmPrev := false, rllState := .idle, nrziLevel := false
        dcnt := 0, ccnt := 0 })
  else raised .badOperand 0x10 s

/-- `ENC.BYTE b` (R82). -/
def execEncByte (b : Byte) (s : State) : StepOutcome := encCommand (encodeOctet b) s

/-- `ENC.BIT d` (R81). -/
def execEncBit (d : Bit) (s : State) : StepOutcome := encCommand (encodeBit d) s

/-- `ENC.RAW c` (R83): flush, then one code bit past the line encoder. -/
def execEncRaw (c : Bit) (s : State) : StepOutcome := encCommand (fun t => pushCode c (flushLine t)) s

/-- `ENC.SYNC` (R84): flush, then the fixed 15-bit marker, whatever `MARKER` holds. -/
def execEncSync (s : State) : StepOutcome :=
  encCommand (fun t => pushCodes Config.syncMarker (flushLine t)) s

/-- `ENC.FLUSH` (R79). -/
def execEncFlush (s : State) : StepOutcome := encCommand flushLine s

/-- `ENC.PRE n` (R85): `n` octets 0xE5. -/
def execEncPre (n : BitVec 16) (s : State) : StepOutcome :=
  encCommand (fun t => (encodeOctet Config.preambleOctet)^[n.toNat] t) s

end Sys2Proof.Machine
end

