-- ==== Sys2Proof/Machine/Rd.lean ====
section
/-! DEFINITION. The `RD` commands, one per readable register of spec/20_memory.md R42, opcode `0x80 + idx`
(spec/45_system_commands.md R189). Each gives the shared read its index and the register's `value64`. -/

namespace Sys2Proof.Machine

/-! ### Configuration registers (spec/10_state.md R13) -/

/-- `RD.ALPHA`, idx 0x00. -/
def execRdAlpha (s : State) : StepOutcome := readReg 0x00 (some (valueRat s.cfg.alpha)) s

/-- `RD.KI`, idx 0x01. -/
def execRdKi (s : State) : StepOutcome := readReg 0x01 (some (valueRat s.cfg.ki)) s

/-- `RD.KP`, idx 0x02. -/
def execRdKp (s : State) : StepOutcome := readReg 0x02 (some (valueRat s.cfg.kp)) s

/-- `RD.INTEG_MAX`, idx 0x03. -/
def execRdIntegMax (s : State) : StepOutcome := readReg 0x03 (s.cfg.integMax.map valueRat) s

/-- `RD.ACC_SIZE`, idx 0x04. -/
def execRdAccSize (s : State) : StepOutcome := readReg 0x04 (s.cfg.accSize.map valueBits) s

/-- `RD.TB_C`, idx 0x05. -/
def execRdTbC (s : State) : StepOutcome := readReg 0x05 (s.cfg.tbC.map valueBits) s

/-- `RD.CHAIN`, idx 0x06. -/
def execRdChain (s : State) : StepOutcome := readReg 0x06 (some (valueBits s.cfg.chain)) s

/-- `RD.MARKER`, idx 0x07. -/
def execRdMarker (s : State) : StepOutcome := readReg 0x07 (some s.cfg.marker) s

/-- `RD.MARKER_LEN`, idx 0x08. -/
def execRdMarkerLen (s : State) : StepOutcome := readReg 0x08 (some (valueBits s.cfg.markerLen)) s

/-! ### STATUS, ENC and DEM (spec/10_state.md R18, R19, R21) -/

/-- `RD.STATUS`, idx 0x10. -/
def execRdStatus (s : State) : StepOutcome := readReg 0x10 (some s.status) s

/-- `RD.ENC_STATE`, idx 0x11. -/
def execRdEncState (s : State) : StepOutcome := readReg 0x11 (some (viewEncState s.enc)) s

/-- `RD.ENC_TB`, idx 0x12. -/
def execRdEncTb (s : State) : StepOutcome := readReg 0x12 (some (valueBits s.enc.tb)) s

/-- `RD.ENC_DCNT`, idx 0x13. -/
def execRdEncDcnt (s : State) : StepOutcome := readReg 0x13 (some (valueNat s.enc.dcnt)) s

/-- `RD.ENC_CCNT`, idx 0x14. -/
def execRdEncCcnt (s : State) : StepOutcome := readReg 0x14 (some (valueNat s.enc.ccnt)) s

/-- `RD.DEM_STATE`, idx 0x15. -/
def execRdDemState (s : State) : StepOutcome := readReg 0x15 (some (viewDemState s.dem)) s

/-- `RD.DEM_CNT`, idx 0x16. -/
def execRdDemCnt (s : State) : StepOutcome := readReg 0x16 (some (valueNat s.dem.cnt)) s

/-! ### SCN (spec/10_state.md R22) -/

/-- `RD.SCN_STATE`, idx 0x17. -/
def execRdScnState (s : State) : StepOutcome := readReg 0x17 (some (viewScnState s.scn)) s

/-- `RD.SCN_IDX`, idx 0x18. -/
def execRdScnIdx (s : State) : StepOutcome := readReg 0x18 (some (valueNat s.scn.idx)) s

/-- `RD.SCN_POS`, idx 0x19. -/
def execRdScnPos (s : State) : StepOutcome := readReg 0x19 (some (valueNat s.scn.pos)) s

/-- `RD.DEC_NBYTES`, idx 0x1A. -/
def execRdDecNbytes (s : State) : StepOutcome := readReg 0x1A (some (valueNat s.scn.nbytes)) s

/-- `RD.DEC_DISCARD`, idx 0x1B. -/
def execRdDecDiscard (s : State) : StepOutcome := readReg 0x1B (some (valueBits s.scn.discard)) s

/-- `RD.DEC_DANGLE`, idx 0x1C. -/
def execRdDecDangle (s : State) : StepOutcome := readReg 0x1C (some (valueBits s.scn.dangle)) s

/-- `RD.SCN_SR`, idx 0x1D. -/
def execRdScnSr (s : State) : StepOutcome := readReg 0x1D (some s.scn.sr) s

/-- `RD.DEC_ASM`, idx 0x1E. -/
def execRdDecAsm (s : State) : StepOutcome := readReg 0x1E (some (viewDecAsm s.scn)) s

/-- `RD.SCN_EVIDX`, idx 0x1F. -/
def execRdScnEvidx (s : State) : StepOutcome := readReg 0x1F (some (valueNat s.scn.evidx)) s

/-! ### CDRF (spec/10_state.md R23) -/

/-- `RD.CDRF_STATE`, idx 0x20. -/
def execRdCdrfState (s : State) : StepOutcome := readReg 0x20 (some (viewCdrfState s.cdrf)) s

/-- `RD.CDRF_IDX`, idx 0x21. -/
def execRdCdrfIdx (s : State) : StepOutcome := readReg 0x21 (some (valueNat s.cdrf.idx)) s

/-- `RD.CDRF_NREC`, idx 0x22. -/
def execRdCdrfNrec (s : State) : StepOutcome := readReg 0x22 (some (valueNat s.cdrf.nrec)) s

/-- `RD.CDRF_SAT`, idx 0x23. -/
def execRdCdrfSat (s : State) : StepOutcome := readReg 0x23 (some (valueNat s.cdrf.sat)) s

/-- `RD.CDRF_SAT_FIRST`, idx 0x24. -/
def execRdCdrfSatFirst (s : State) : StepOutcome := readReg 0x24 (some (valueNat s.cdrf.satFirst)) s

/-! ### CDRX (spec/10_state.md R24) -/

/-- `RD.CDRX_STATE`, idx 0x30. -/
def execRdCdrxState (s : State) : StepOutcome := readReg 0x30 (some (viewCdrxState s.cdrx)) s

/-- `RD.CDRX_IDX`, idx 0x31. -/
def execRdCdrxIdx (s : State) : StepOutcome := readReg 0x31 (some (valueNat s.cdrx.idx)) s

/-- `RD.CDRX_NREC`, idx 0x32. -/
def execRdCdrxNrec (s : State) : StepOutcome := readReg 0x32 (some (valueNat s.cdrx.nrec)) s

/-- `RD.CDRX_SAT`, idx 0x33. -/
def execRdCdrxSat (s : State) : StepOutcome := readReg 0x33 (some (valueNat s.cdrx.sat)) s

/-- `RD.CDRX_SAT_FIRST`, idx 0x34. -/
def execRdCdrxSatFirst (s : State) : StepOutcome := readReg 0x34 (some (valueNat s.cdrx.satFirst)) s

/-- `RD.CDRX_MAXW`, idx 0x35. -/
def execRdCdrxMaxw (s : State) : StepOutcome := readReg 0x35 (some (valueNat s.cdrx.maxw)) s

/-- `RD.CDRX_FAULT_IDX`, idx 0x36. -/
def execRdCdrxFaultIdx (s : State) : StepOutcome := readReg 0x36 (some (valueNat s.cdrx.faultIdx)) s

/-- `RD.CDRX_FAULT_STEP`, idx 0x37. -/
def execRdCdrxFaultStep (s : State) : StepOutcome := readReg 0x37 (some (valueBits s.cdrx.faultStep)) s

/-- `RD.X_ACC`, idx 0x38. -/
def execRdXAcc (s : State) : StepOutcome := readReg 0x38 (some (valueFx s.cdrx.acc)) s

/-- `RD.X_LAST`, idx 0x39. -/
def execRdXLast (s : State) : StepOutcome := readReg 0x39 (some (valueFx s.cdrx.last)) s

/-- `RD.X_PD`, idx 0x3A. -/
def execRdXPd (s : State) : StepOutcome := readReg 0x3A (some (valueFx s.cdrx.pd)) s

/-- `RD.X_PDF`, idx 0x3B. -/
def execRdXPdf (s : State) : StepOutcome := readReg 0x3B (some (valueFx s.cdrx.pdf)) s

/-- `RD.X_INTEG`, idx 0x3C. -/
def execRdXInteg (s : State) : StepOutcome := readReg 0x3C (some (valueFx s.cdrx.integ)) s

/-- `RD.X_FTW`, idx 0x3D. -/
def execRdXFtw (s : State) : StepOutcome := readReg 0x3D (some (valueFx s.cdrx.ftw)) s

/-! ### The latched constants of CDRX (spec/10_state.md R24) -/

/-- `RD.X_ALPHA`, idx 0x40. -/
def execRdXAlpha (s : State) : StepOutcome := readReg 0x40 (s.cdrx.latch.map (fun k => valueFx k.alpha)) s

/-- `RD.X_KI`, idx 0x41. -/
def execRdXKi (s : State) : StepOutcome := readReg 0x41 (s.cdrx.latch.map (fun k => valueFx k.ki)) s

/-- `RD.X_KP`, idx 0x42. -/
def execRdXKp (s : State) : StepOutcome := readReg 0x42 (s.cdrx.latch.map (fun k => valueFx k.kp)) s

/-- `RD.X_IMAX`, idx 0x43. -/
def execRdXImax (s : State) : StepOutcome := readReg 0x43 (s.cdrx.latch.map (fun k => valueFx k.imax)) s

/-- `RD.X_ACCSZ`, idx 0x44. -/
def execRdXAccsz (s : State) : StepOutcome := readReg 0x44 (s.cdrx.latch.map (fun k => valueFx k.accsz)) s

/-- `RD.X_FTW0`, idx 0x45. -/
def execRdXFtw0 (s : State) : StepOutcome := readReg 0x45 (s.cdrx.latch.map (fun k => valueFx k.ftw0)) s

end Sys2Proof.Machine
end

