-- ==== Sys2Proof/Machine/Sys.lean ====
section
/-! DEFINITION. The system commands NOP, RESET, CLRSTAT (spec/45_system_commands.md R185 to R187). -/

namespace Sys2Proof.Machine

/-- `NOP` (R185). -/
def execNop (s : State) : StepOutcome := done s

/-- `RESET` (R186): every register gets its reset value; the port logs are not touched, and the words the host has
issued stay with the host (log entries 5 and 7). -/
def execReset (s : State) : StepOutcome := done ((State.reset.setPorts s.ports).setInbox s.inbox)

/-- `CLRSTAT mask` (R187). -/
def execClrstat (mask : BitVec 16) (s : State) : StepOutcome := done (s.setStatus (clearFlags mask s.status))

end Sys2Proof.Machine
end

