-- ==== Sys2Proof/Machine/Wr.lean ====
section
/-! DEFINITION. The `WR` commands, one per writable register, opcode `0x40 + idx`
(spec/45_system_commands.md R188, spec/30_encoding.md R59). -/

namespace Sys2Proof.Machine

/-- `WR.ALPHA num/den`. -/
def execWrAlpha (num den : BitVec 32) (s : State) : StepOutcome :=
  writeReg 0x40 (legalRat ⟨num, den⟩) { s.cfg with alpha := ⟨num, den⟩ } s

/-- `WR.KI num/den`. -/
def execWrKi (num den : BitVec 32) (s : State) : StepOutcome :=
  writeReg 0x41 (legalRat ⟨num, den⟩) { s.cfg with ki := ⟨num, den⟩ } s

/-- `WR.KP num/den`. -/
def execWrKp (num den : BitVec 32) (s : State) : StepOutcome :=
  writeReg 0x42 (legalRat ⟨num, den⟩) { s.cfg with kp := ⟨num, den⟩ } s

/-- `WR.INTEG_MAX num/den`. -/
def execWrIntegMax (num den : BitVec 32) (s : State) : StepOutcome :=
  writeReg 0x43 (legalIntegMax ⟨num, den⟩) { s.cfg with integMax := some ⟨num, den⟩ } s

/-- `WR.ACC_SIZE v`. -/
def execWrAccSize (v : BitVec 32) (s : State) : StepOutcome :=
  writeReg 0x44 (legalNonzero v) { s.cfg with accSize := some v } s

/-- `WR.TB_C v`. -/
def execWrTbC (v : BitVec 32) (s : State) : StepOutcome :=
  writeReg 0x45 (legalNonzero v) { s.cfg with tbC := some v } s

/-- `WR.CHAIN v`. -/
def execWrChain (v : BitVec 3) (s : State) : StepOutcome :=
  writeReg 0x46 (legalChain v) { s.cfg with chain := v } s

/-- `WR.MARKER v`: every value is legal. -/
def execWrMarker (v : BitVec 64) (s : State) : StepOutcome := writeReg 0x47 true { s.cfg with marker := v } s

/-- `WR.MARKER_LEN v`. -/
def execWrMarkerLen (v : BitVec 7) (s : State) : StepOutcome :=
  writeReg 0x48 (legalMarkerLen v) { s.cfg with markerLen := v } s

end Sys2Proof.Machine
end

