-- ==== Sys2Proof/Machine/Dispatch.lean ====
section
/-! DEFINITION. What each command does: one arm per constructor of Instr, in the order of spec/opcode_table.json. -/

namespace Sys2Proof.Machine

def exec (i : Instr) (s : State) : Host.Outcome State Fault Refusal :=
  match i with
  | .nop => Sys2Proof.Machine.execNop s
  | .reset => Sys2Proof.Machine.execReset s
  | .clrstat n => Sys2Proof.Machine.execClrstat n s
  | .encStart scheme tb => Sys2Proof.Machine.execEncStart scheme tb s
  | .encByte b => Sys2Proof.Machine.execEncByte b s
  | .encBit b => Sys2Proof.Machine.execEncBit b s
  | .encRaw b => Sys2Proof.Machine.execEncRaw b s
  | .encSync => Sys2Proof.Machine.execEncSync s
  | .encFlush => Sys2Proof.Machine.execEncFlush s
  | .encPre n => Sys2Proof.Machine.execEncPre n s
  | .demStart => Sys2Proof.Machine.execDemStart s
  | .demLevel b => Sys2Proof.Machine.execDemLevel b s
  | .scnStart scheme => Sys2Proof.Machine.execScnStart scheme s
  | .scnBit b => Sys2Proof.Machine.execScnBit b s
  | .scnEnd => Sys2Proof.Machine.execScnEnd s
  | .cdrfStart => Sys2Proof.Machine.execCdrfStart s
  | .cdrfSample b => Sys2Proof.Machine.execCdrfSample b s
  | .cdrfAmp b => Sys2Proof.Machine.execCdrfAmp b s
  | .cdrxStart => Sys2Proof.Machine.execCdrxStart s
  | .cdrxSample b => Sys2Proof.Machine.execCdrxSample b s
  | .cdrxAmp b => Sys2Proof.Machine.execCdrxAmp b s
  | .wrAlpha num den => Sys2Proof.Machine.execWrAlpha num den s
  | .wrKi num den => Sys2Proof.Machine.execWrKi num den s
  | .wrKp num den => Sys2Proof.Machine.execWrKp num den s
  | .wrIntegMax num den => Sys2Proof.Machine.execWrIntegMax num den s
  | .wrAccSize v => Sys2Proof.Machine.execWrAccSize v s
  | .wrTbC v => Sys2Proof.Machine.execWrTbC v s
  | .wrChain v => Sys2Proof.Machine.execWrChain v s
  | .wrMarker v => Sys2Proof.Machine.execWrMarker v s
  | .wrMarkerLen v => Sys2Proof.Machine.execWrMarkerLen v s
  | .rdAlpha => Sys2Proof.Machine.execRdAlpha s
  | .rdKi => Sys2Proof.Machine.execRdKi s
  | .rdKp => Sys2Proof.Machine.execRdKp s
  | .rdIntegMax => Sys2Proof.Machine.execRdIntegMax s
  | .rdAccSize => Sys2Proof.Machine.execRdAccSize s
  | .rdTbC => Sys2Proof.Machine.execRdTbC s
  | .rdChain => Sys2Proof.Machine.execRdChain s
  | .rdMarker => Sys2Proof.Machine.execRdMarker s
  | .rdMarkerLen => Sys2Proof.Machine.execRdMarkerLen s
  | .rdStatus => Sys2Proof.Machine.execRdStatus s
  | .rdEncState => Sys2Proof.Machine.execRdEncState s
  | .rdEncTb => Sys2Proof.Machine.execRdEncTb s
  | .rdEncDcnt => Sys2Proof.Machine.execRdEncDcnt s
  | .rdEncCcnt => Sys2Proof.Machine.execRdEncCcnt s
  | .rdDemState => Sys2Proof.Machine.execRdDemState s
  | .rdDemCnt => Sys2Proof.Machine.execRdDemCnt s
  | .rdScnState => Sys2Proof.Machine.execRdScnState s
  | .rdScnIdx => Sys2Proof.Machine.execRdScnIdx s
  | .rdScnPos => Sys2Proof.Machine.execRdScnPos s
  | .rdDecNbytes => Sys2Proof.Machine.execRdDecNbytes s
  | .rdDecDiscard => Sys2Proof.Machine.execRdDecDiscard s
  | .rdDecDangle => Sys2Proof.Machine.execRdDecDangle s
  | .rdScnSr => Sys2Proof.Machine.execRdScnSr s
  | .rdDecAsm => Sys2Proof.Machine.execRdDecAsm s
  | .rdScnEvidx => Sys2Proof.Machine.execRdScnEvidx s
  | .rdCdrfState => Sys2Proof.Machine.execRdCdrfState s
  | .rdCdrfIdx => Sys2Proof.Machine.execRdCdrfIdx s
  | .rdCdrfNrec => Sys2Proof.Machine.execRdCdrfNrec s
  | .rdCdrfSat => Sys2Proof.Machine.execRdCdrfSat s
  | .rdCdrfSatFirst => Sys2Proof.Machine.execRdCdrfSatFirst s
  | .rdCdrxState => Sys2Proof.Machine.execRdCdrxState s
  | .rdCdrxIdx => Sys2Proof.Machine.execRdCdrxIdx s
  | .rdCdrxNrec => Sys2Proof.Machine.execRdCdrxNrec s
  | .rdCdrxSat => Sys2Proof.Machine.execRdCdrxSat s
  | .rdCdrxSatFirst => Sys2Proof.Machine.execRdCdrxSatFirst s
  | .rdCdrxMaxw => Sys2Proof.Machine.execRdCdrxMaxw s
  | .rdCdrxFaultIdx => Sys2Proof.Machine.execRdCdrxFaultIdx s
  | .rdCdrxFaultStep => Sys2Proof.Machine.execRdCdrxFaultStep s
  | .rdXAcc => Sys2Proof.Machine.execRdXAcc s
  | .rdXLast => Sys2Proof.Machine.execRdXLast s
  | .rdXPd => Sys2Proof.Machine.execRdXPd s
  | .rdXPdf => Sys2Proof.Machine.execRdXPdf s
  | .rdXInteg => Sys2Proof.Machine.execRdXInteg s
  | .rdXFtw => Sys2Proof.Machine.execRdXFtw s
  | .rdXAlpha => Sys2Proof.Machine.execRdXAlpha s
  | .rdXKi => Sys2Proof.Machine.execRdXKi s
  | .rdXKp => Sys2Proof.Machine.execRdXKp s
  | .rdXImax => Sys2Proof.Machine.execRdXImax s
  | .rdXAccsz => Sys2Proof.Machine.execRdXAccsz s
  | .rdXFtw0 => Sys2Proof.Machine.execRdXFtw0 s

end Sys2Proof.Machine
end

