-- ==== Sys2Proof/Machine/Step.lean ====
section
/-! DEFINITION. One step of the block: accept the next command word the host has issued, decode it, execute it
completely (spec/00_scope.md R3). -/

namespace Sys2Proof.Machine

/-- One step. While the host has issued no word the block waits: nothing changes (spec/70_reset_and_hazards.md R225,
"the block waits for the host's first command"; log entry 5). -/
def step (s : State) : Host.Outcome State Fault Refusal :=
  match fetch s with
  | none => .next s
  | some (cw, t) =>
    match decode cw with
    | .ok i => exec i t
    | .error e => illegalCommand e t

/-- `s` with the word whose bits are `w` as the next one the host has issued. -/
def State.withFetchWord (s : State) (nbits w : Nat) : State := s.setInbox (tableWord nbits w :: s.inbox)

end Sys2Proof.Machine
end

