-- ==== Sys2Proof/Machine/Streams.lean ====
section
/-! DEFINITION. The spec's functions of whole streams (spec/40_line_encoders.md R70, R71, spec/41_nrzi.md R100, R103,
spec/42_sync_frame.md R115, R120), a run of several commands, and closed forms of what a command leaves. Claims are stated
in these terms; no command's meaning calls them. -/

namespace Sys2Proof.Machine

/-! ### Running commands -/

/-- Issue the commands one after the other; stop at the first fault or refusal. -/
def execAll : List Instr → State → StepOutcome
  | [], s => .next s
  | i :: is, s =>
    match exec i s with
    | .next t => execAll is t
    | .fault f => .fault f
    | .refused r => .refused r

/-- Give the bits to CDRX sample by sample at register width `w`; stop at the first fault or refusal. -/
def fixedFeed (w : Option Nat) : List Bit → State → StepOutcome
  | [], s => .next s
  | b :: bs, s =>
    match fixedCommand w b s with
    | .next t => fixedFeed w bs t
    | .fault f => .fault f
    | .refused r => .refused r

/-- CDRX.START and then samples, at register width `w`. -/
def fixedRun (w : Option Nat) (bs : List Bit) (s : State) : StepOutcome :=
  match fixedStart w s with
  | .next t => fixedFeed w bs t
  | .fault f => .fault f
  | .refused r => .refused r

/-! ### Encoding as functions -/

/-- `bits(octets)` (R70). -/
def bits (os : List Byte) : List Bit := os.flatMap octetBits

/-- The state a line encoder carries from one data bit to the next (R71). -/
structure LineState where
  prev : Bit
  rll : RllState
  deriving DecidableEq, Repr

/-- The start state: `MFM_PREV = 0` and the RLL27 machine's initial state (spec/10_state.md R20). -/
def LineState.start : LineState := ⟨false, .idle⟩

/-- `LE_v(state, d)` (R71 to R78). -/
def leStep (v : Scheme) (st : LineState) (d : Bit) : LineState × List Bit :=
  match v with
  | .direct => (st, leDirect d)
  | .fm => (st, leFm d)
  | .mfm => ({ st with prev := (leMfm st.prev d).1 }, (leMfm st.prev d).2)
  | .rll27 => ({ st with rll := (leRll st.rll d).1 }, (leRll st.rll d).2)

/-- `LE_v` over a bit sequence: the state reached and all the code bits. -/
def leRun (v : Scheme) : LineState → List Bit → LineState × List Bit
  | st, [] => (st, [])
  | st, d :: ds => ((leRun v (leStep v st d).1 ds).1, (leStep v st d).2 ++ (leRun v (leStep v st d).1 ds).2)

/-- The number of implicit zero bits that complete a pending pattern (spec/70_reset_and_hazards.md R234). -/
def flushZeros : RllState → Nat
  | .idle => 0
  | .one | .zeroOne | .zeroZero | .zeroZeroOne => 1
  | .zero => 2

/-- The code bits a flush emits from each pending state (R79). -/
def flushCode : RllState → List Bit
  | .idle => []
  | .one => [true, false, false, false]
  | .zero | .zeroZero => [false, false, false, true, false, false]
  | .zeroOne => [false, false, true, false, false, false]
  | .zeroZeroOne => [false, false, true, false, false, true, false, false]

/-- `bitstream_v(octets)` (R71). -/
def bitstream (v : Scheme) (os : List Byte) : List Bit :=
  (leRun v .start (bits os)).2 ++ flushCode (leRun v .start (bits os)).1.rll

/-! ### NRZI as functions -/

/-- The modulator from a given level (R100): a 1 toggles, the level is output `tb` times per code bit. -/
def modulateFrom (tb : Nat) : Bit → List Bit → List Bit
  | _, [] => []
  | lvl, c :: cs => List.replicate tb (lvl ^^ c) ++ modulateFrom tb (lvl ^^ c) cs

/-- `modulate(codeBits, tb)` (R100). -/
def modulate (cs : List Bit) (tb : Nat) : List Bit := modulateFrom tb false cs

/-- The level after a code-bit sequence: toggled once for each 1. -/
def levelAfter (lvl : Bit) (cs : List Bit) : Bit := cs.foldl (fun a c => a ^^ c) lvl

/-- `demodulate(levels)` (R103). -/
def demodulate : List Bit → List Bit
  | [] => []
  | [_] => []
  | a :: b :: rest => (a ^^ b) :: demodulate (b :: rest)

/-! ### Scanning and decoding as functions -/

/-- `scan(stream, marker)` (R115): the index just after the first place the marker stands, if it stands anywhere. -/
def scan (marker : List Bit) : List Bit → Option Nat
  | [] => if marker.isEmpty then some 0 else none
  | c :: cs => if marker.isPrefixOf (c :: cs) then some marker.length else (scan marker cs).map (· + 1)

/-- Every element with odd index (R120). -/
def oddBits : List Bit → List Bit
  | [] => []
  | [_] => []
  | _ :: d :: rest => d :: oddBits rest

/-- Whole octets of a bit sequence, most significant bit first, and the bits left over (R120). -/
def octetsOf : List Bit → List Byte × List Bit
  | b7 :: b6 :: b5 :: b4 :: b3 :: b2 :: b1 :: b0 :: rest =>
    (BitVec.ofNat 8 (msbNat [b7, b6, b5, b4, b3, b2, b1, b0]) :: (octetsOf rest).1, (octetsOf rest).2)
  | few => ([], few)

/-- The data bits of a payload for the three schemes whose decoder accepts every input (R120, R123, R124). -/
def payloadData (v : Scheme) (cs : List Bit) : List Bit := if v = .direct then cs else oddBits cs

/-! ### Closed forms of what a command leaves -/

/-- The state with a response. -/
def State.answered (s : State) (st : BitVec 8) (val : BitVec 64) : State := { s with response := some ⟨st, val⟩ }

/-- The state after the code bits `cs` went to CODE and through the modulator. -/
def State.sentCode (s : State) (cs : List Bit) : State :=
  { s with
    enc := { s.enc with nrziLevel := levelAfter s.enc.nrziLevel cs, ccnt := s.enc.ccnt + cs.length }
    ports := { s.ports with
      code := s.ports.code ++ cs
      level := s.ports.level ++ modulateFrom s.enc.tb.toNat s.enc.nrziLevel cs
      amp := s.ports.amp ++ (modulateFrom s.enc.tb.toNat s.enc.nrziLevel cs).map ampOf } }

/-- The state after the data bits `ds` went through the line encoder. -/
def State.sentData (s : State) (ds : List Bit) : State :=
  let r := leRun s.enc.scheme ⟨s.enc.mfmPrev, s.enc.rllState⟩ ds
  { s with
    enc := { s.enc with mfmPrev := r.1.prev, rllState := r.1.rll, dcnt := s.enc.dcnt + ds.length } }.sentCode r.2

/-- The state after a flush of the line encoder (R79). -/
def State.flushed (s : State) : State :=
  if s.enc.scheme = .rll27 then
    { s with enc := { s.enc with rllState := .idle } }.sentCode (flushCode s.enc.rllState)
  else s

/-- The state after one data bit reached the octet assembler (R122), in numbers. -/
def State.assembled (s : State) (d : Bit) : State :=
  let v := (2 * s.scn.shift.toNat + d.toNat) % 256
  if s.scn.cnt.toNat = 7 then
    { s with
      scn := { s.scn with nbytes := s.scn.nbytes + 1, shift := 0, cnt := 0 }
      ports := { s.ports with byte := s.ports.byte ++ [BitVec.ofNat 8 v] } }
  else { s with scn := { s.scn with shift := BitVec.ofNat 8 v, cnt := BitVec.ofNat 3 (s.scn.cnt.toNat + 1) } }

end Sys2Proof.Machine
end

