-- ==== Sys2Proof/Safety.lean ====
section
/-! DEFINITION. What a good state is: the invariants of spec/10_state.md R25, spec/43_cdr_float.md R148 and
spec/44_cdr_fixed.md R171, with the facts they rest on. A safe run never stops: it meets no fault and no refusal. -/

namespace Sys2Proof.Machine

/-- Every configuration register that is written holds a legal value (spec/10_state.md R17). -/
structure CfgLegal (c : CfgRegs) : Prop where
  alpha : c.alpha.den ≠ 0
  ki : c.ki.den ≠ 0
  kp : c.kp.den ≠ 0
  integMax : ∀ r, c.integMax = some r → r.den ≠ 0 ∧ 0 ≤ r.num.toInt
  accSize : ∀ v, c.accSize = some v → v ≠ 0
  tbC : ∀ v, c.tbC = some v → v ≠ 0
  chain : c.chain.extractLsb' 0 2 ≠ 3
  markerLen : 1 ≤ c.markerLen.toNat ∧ c.markerLen.toNat ≤ 64

/-- ENC: `ENC_TB >= 1`, and the state of an encoder that is not in use keeps its start value (spec/10_state.md R20). -/
structure EncGood (u : EncUnit) : Prop where
  tb : u.tb ≠ 0
  mfmPrev : u.scheme ≠ .mfm → u.mfmPrev = false
  rllState : u.scheme ≠ .rll27 → u.rllState = .idle

/-- SCN: R25 (d) and (f), the marker length legal, the shift register within it, no position and no octet before the
marker is found (spec/42_sync_frame.md R118, R127), halted only by an RLL27 payload. -/
structure ScnGood (u : ScnUnit) : Prop where
  markerLen : 1 ≤ u.l.toNat ∧ u.l.toNat ≤ 64
  shiftReg : u.sr.toNat < 2 ^ u.l.toNat
  clen : u.clen.toNat ≤ 7
  foundPayload : u.phase = .payload → u.found = true
  notFoundBefore : u.phase = .idle ∨ u.phase = .scan → u.found = false
  noPosition : u.found = false → u.pos = 0 ∧ u.nbytes = 0 ∧ u.payIdx = 0 ∧ u.cnt = 0 ∧ u.clen = 0
  halted : u.halt = true → u.dscheme = .rll27 ∧ u.found = true

/-- CDRF: the latched constants are written exactly while the unit runs, and R25 (a), (b), R148. -/
structure CdrfGood (u : CdrfUnit) : Prop where
  latched : u.latch.isSome = u.run
  accsz : ∀ k, u.latch = some k → 1 ≤ k.accsz
  imax : ∀ k, u.latch = some k → 0 ≤ k.imax
  acc : ∀ k, u.latch = some k → 0 ≤ u.acc ∧ u.acc < (k.accsz : Rat)
  integ : ∀ k, u.latch = some k → -k.imax ≤ u.integ ∧ u.integ ≤ k.imax
  nrec : u.nrec ≤ u.idx
  sat : u.sat ≤ u.idx

/-- CDRX: the latched constants are written exactly while the unit was started, they fit, and R25 (a), (b), (e), R171. -/
structure CdrxGood (u : CdrxUnit) : Prop where
  latched : u.latch.isSome = u.run
  constants : ∀ k, u.latch = some k → firstUnfit Config.fxWidthPred k = none
  accsz : ∀ k, u.latch = some k → 1 ≤ k.accsz ∧ k.accsz % fxOne = 0
  imax : ∀ k, u.latch = some k → 0 ≤ k.imax
  acc : ∀ k, u.latch = some k → 0 ≤ u.acc ∧ u.acc < k.accsz
  integ : ∀ k, u.latch = some k → -k.imax ≤ u.integ ∧ u.integ ≤ k.imax
  fitting : fits u.pd = true ∧ fits u.pdf = true ∧ fits u.integ = true ∧ fits u.ftw = true
  nrec : u.nrec ≤ u.idx
  sat : u.sat ≤ u.idx
  halted : u.halt = true → u.run = true ∧ u.faultIdx = u.idx
  maxw : (u.maxw = 0 ↔ u.idx = 0) ∧ (0 < u.idx → widthS u.pdf ≤ u.maxw)

/-- A good state: every unit is, and the reserved bits 63..11 of `STATUS` are 0 (spec/10_state.md R18). -/
structure Inv (s : State) : Prop where
  cfg : CfgLegal s.cfg
  status : s.status.toNat < 2 ^ 11
  enc : EncGood s.enc
  scn : ScnGood s.scn
  cdrf : CdrfGood s.cdrf
  cdrx : CdrxGood s.cdrx

/-- A run of `k` steps from a state is safe: it stops nowhere and ends in a good state. -/
def SafeRun (k : Nat) (s : State) : Prop := ∃ t, Host.Core.run core k s = .next t ∧ Inv t

end Sys2Proof.Machine
end

