-- ==== Sys2Proof/Certificates/Slice0/Obligations.lean ====
section
/-! DEFINITION. The statements for the provers. Each docstring names the rule it formalises. `s.answered st val` is `s` with
that response. In the statements 0x80, 0x100, 0x200, 0x400 and so on are `STATUS` masks (spec/10_state.md R18). -/

open Sys2Proof Sys2Proof.Machine

/-! ### Words -/

/-- Decode and encode agree: the word of every command decodes to that command, every operand at every value (R55,
R58). -/
def Obligations.DecodeInvertsEncode : Prop := ∀ i : Instr, decode (encode i) = .ok i

/-- A word that decodes is the word of the command it decodes to: no bit of it is ignored (R56, "Unused bits must be
0"). -/
def Obligations.EncodeInvertsDecode : Prop := ∀ (cw : CmdWord) (i : Instr), decode cw = .ok i → encode i = cw

/-- R56: decoding finds the one row with `CW and mask = match`; a word with a non-zero unused operand bit matches no row;
the rows are pairwise disjoint. -/
def Obligations.DecodingFindsTheOneRow : Prop :=
  (∀ cw, ∀ r ∈ opcodeTable, cw &&& r.mask = r.pattern → decode cw = .ok (r.build (argOf cw))) ∧
  (∀ cw, ∀ r ∈ opcodeTable, opOf cw = r.op → argOf cw &&& r.format.unused ≠ 0 →
    ∀ q ∈ opcodeTable, cw &&& q.mask ≠ q.pattern) ∧
  opcodeTable.Pairwise (fun r q => ∀ cw, ¬(cw &&& r.mask = r.pattern ∧ cw &&& q.mask = q.pattern))

/-- R61: a word that matches no row is refused with IllegalCommand, sets `STATUS.ILL`, is answered `(0x10, op)` and
changes nothing else; which opcodes are in no row; a stray operand bit makes a listed opcode illegal; every word
selects exactly one row or none. -/
def Obligations.IllegalWordChangesNothingElse : Prop :=
  (∀ s cw rest, s.inbox = cw :: rest → (∀ r ∈ opcodeTable, r.selectedBy cw = false) →
    step s = .next { s with
      inbox := rest, status := s.status ||| 0x40, response := some ⟨0x10, (opOf cw).setWidth 64⟩ }) ∧
  (∀ op : Byte, (∀ r ∈ opcodeTable, r.op ≠ op) ↔
    (0x03 ≤ op.toNat ∧ op.toNat ≤ 0x0F) ∨ (0x17 ≤ op.toNat ∧ op.toNat ≤ 0x1F) ∨
    (0x22 ≤ op.toNat ∧ op.toNat ≤ 0x27) ∨ (0x2B ≤ op.toNat ∧ op.toNat ≤ 0x2F) ∨
    (0x33 ≤ op.toNat ∧ op.toNat ≤ 0x37) ∨ (0x3B ≤ op.toNat ∧ op.toNat ≤ 0x3F) ∨
    (0x49 ≤ op.toNat ∧ op.toNat ≤ 0x7F) ∨ (0x89 ≤ op.toNat ∧ op.toNat ≤ 0x8F) ∨
    (0xA5 ≤ op.toNat ∧ op.toNat ≤ 0xAF) ∨ op.toNat = 0xBE ∨ op.toNat = 0xBF ∨ 0xC6 ≤ op.toNat) ∧
  (∀ cw, ∀ r ∈ opcodeTable, opOf cw = r.op → argOf cw &&& r.format.unused ≠ 0 →
    ∀ q ∈ opcodeTable, q.selectedBy cw = false) ∧
  (∀ cw, (∃ r ∈ opcodeTable, r.selectedBy cw = true ∧ ∀ q ∈ opcodeTable, q.selectedBy cw = true → q.op = r.op) ∨
    (∀ r ∈ opcodeTable, r.selectedBy cw = false))

/-- Words the spec writes out (R80, R62, R116, R150, R188, R189) decode to the commands it says they are. -/
def Obligations.SpecWordsDecode : Prop :=
  decode 0x100000000000010002 = .ok (.encStart .mfm 1) ∧
  decode 0x1100000000000000A1 = .ok (.encByte 0xA1) ∧
  decode 0x280000000000000002 = .ok (.scnStart .mfm) ∧
  decode 0x3200000000000000FF = .ok (.cdrfAmp 0xFF) ∧
  decode 0x4000000063000003E8 = .ok (.wrAlpha 99 1000) ∧
  decode 0x42FFFFFFFF00000004 = .ok (.wrKp 0xFFFFFFFF 4) ∧
  decode 0x460000000000000005 = .ok (.wrChain 5) ∧
  decode 0x840000000000000000 = .ok .rdAccSize

/-- A step runs the decoded command: it takes the first word the host has issued off the inbox and executes it. While
the host has issued no word, a step changes nothing: this clause is the model's choice (log entry 5). -/
def Obligations.StepRunsDecodedCommand : Prop :=
  (∀ s cw rest i, s.inbox = cw :: rest → decode cw = .ok i → step s = exec i { s with inbox := rest }) ∧
  (∀ s, s.inbox = [] → step s = .next s)

/-! ### Reset and the system commands -/

/-- R225: the reset values. -/
def Obligations.ResetValues : Prop :=
  let r := State.reset
  r.cfg.alpha = ⟨99, 1000⟩ ∧ r.cfg.ki = ⟨137, 1000000⟩ ∧ r.cfg.kp = ⟨93, 1000⟩ ∧
  r.cfg.integMax = none ∧ r.cfg.accSize = none ∧ r.cfg.tbC = none ∧
  r.cfg.chain = 0 ∧ r.cfg.marker = 0x4489 ∧ r.cfg.markerLen = 15 ∧ r.status = 0 ∧
  r.enc = ⟨false, .direct, 1, false, .idle, false, 0, 0⟩ ∧ r.dem = ⟨false, false, false, 0⟩ ∧
  r.scn = ⟨.idle, .mfm, 0x4489, 15, 0, 0, false, 0, false, 0, 0, 0, 0, 0, 0, 0, 0, 0⟩ ∧
  r.cdrf = ⟨false, none, 0, 0, 0, 0, 0, 0, false, 0, 0, 0, 0⟩ ∧
  r.cdrx = ⟨false, false, false, 0, 0, 0, 0, 0, 0, 0, 0, 0, 0, 0, 0, 0, none⟩

/-- R185, R186: NOP changes nothing; RESET returns every register to its reset value, emits nothing and does not touch
the port logs. That RESET also leaves the words still with the host, `inbox`, is the model's choice (log entry 5): the
spec gives that field of the model's own no rule. -/
def Obligations.NopAndReset : Prop :=
  (∀ s, exec .nop s = .next (s.answered 0 0)) ∧
  (∀ s, exec .reset s = .next ({ State.reset with ports := s.ports, inbox := s.inbox }.answered 0 0))

/-- R187: the word of CLRSTAT; it clears exactly the masked flags; mask bits 11..15 have no effect on a `STATUS` whose
reserved bits are 0; no halt, no counter and nothing else changes. -/
def Obligations.ClrstatClearsTheMask : Prop :=
  (∀ mask : BitVec 16, decode (BitVec.ofNat 72 (0x020000000000000000 + mask.toNat)) = .ok (.clrstat mask)) ∧
  (∀ s mask, ∃ v, exec (.clrstat mask) s = .next ({ s with status := v }.answered 0 0) ∧
    ∀ i, v.getLsbD i = (s.status.getLsbD i && !mask.getLsbD i)) ∧
  (∀ s mask, s.status.toNat < 2 ^ 11 → exec (.clrstat mask) s = exec (.clrstat (mask &&& 0x7FF)) s)

/-- R201, R203: the code and the `STATUS` bit of every event; raising sets both and nothing else; noting sets the bit and
leaves the first noted response pending; a pending response is returned instead of the command's own. -/
def Obligations.EventsRaisedAndNoted : Prop :=
  ([Event.markerNotFound, .truncatedFrame, .numericOverflow, .clampSaturation .real, .clampSaturation .fixed,
      .codeViolation, .illegalCommand, .badOperand, .badConfig, .notRunning].map
    (fun e => (e.code.toNat, e.flag.bit))) =
    [(1, 0), (2, 1), (3, 2), (4, 3), (4, 4), (5, 5), (0x10, 6), (0x11, 7), (0x12, 8), (0x13, 9)] ∧
  (∀ e n s, ∃ v, raise e n s = { s with status := v }.answered e.code (BitVec.ofNat 64 n) ∧
    ∀ i, v.getLsbD i = (s.status.getLsbD i || decide (i = e.flag.bit))) ∧
  (∀ e n s, ∃ v, note e n none s = ({ s with status := v }, some ⟨e.code, BitVec.ofNat 64 n⟩) ∧
    ∀ i, v.getLsbD i = (s.status.getLsbD i || decide (i = e.flag.bit))) ∧
  (∀ e n r s, (note e n (some r) s).2 = some r) ∧
  (∀ s r, respond none r s = s.answered r.st r.val) ∧ (∀ s p r, respond (some p) r s = s.answered p.st p.val)

/-! ### ENC -/

/-- The line encoders' tables: Direct (R72), FM (R73), the four cases of MFM (R75), the twelve rows of RLL27 (R78). -/
def Obligations.LineEncoderTables : Prop :=
  let bitsOf := fun (l : List Nat) => l.map (fun n => n == 1)
  (∀ st d, leStep .direct st d = (st, [d])) ∧ (∀ st d, leStep .fm st d = (st, [true, d])) ∧
  (∀ r, leStep .mfm ⟨false, r⟩ false = (⟨false, r⟩, bitsOf [1, 0])) ∧
  (∀ r, leStep .mfm ⟨true, r⟩ false = (⟨false, r⟩, bitsOf [0, 0])) ∧
  (∀ p r, leStep .mfm ⟨p, r⟩ true = (⟨true, r⟩, bitsOf [0, 1])) ∧
  (∀ p : Bit,
    leStep .rll27 ⟨p, .idle⟩ false = (⟨p, .zero⟩, []) ∧
    leStep .rll27 ⟨p, .idle⟩ true = (⟨p, .one⟩, []) ∧
    leStep .rll27 ⟨p, .one⟩ false = (⟨p, .idle⟩, bitsOf [1, 0, 0, 0]) ∧
    leStep .rll27 ⟨p, .one⟩ true = (⟨p, .idle⟩, bitsOf [0, 1, 0, 0]) ∧
    leStep .rll27 ⟨p, .zero⟩ false = (⟨p, .zeroZero⟩, []) ∧
    leStep .rll27 ⟨p, .zero⟩ true = (⟨p, .zeroOne⟩, []) ∧
    leStep .rll27 ⟨p, .zeroOne⟩ false = (⟨p, .idle⟩, bitsOf [0, 0, 1, 0, 0, 0]) ∧
    leStep .rll27 ⟨p, .zeroOne⟩ true = (⟨p, .idle⟩, bitsOf [1, 0, 0, 1, 0, 0]) ∧
    leStep .rll27 ⟨p, .zeroZero⟩ false = (⟨p, .idle⟩, bitsOf [0, 0, 0, 1, 0, 0]) ∧
    leStep .rll27 ⟨p, .zeroZero⟩ true = (⟨p, .zeroZeroOne⟩, []) ∧
    leStep .rll27 ⟨p, .zeroZeroOne⟩ false = (⟨p, .idle⟩, bitsOf [0, 0, 1, 0, 0, 1, 0, 0]) ∧
    leStep .rll27 ⟨p, .zeroZeroOne⟩ true = (⟨p, .idle⟩, bitsOf [0, 0, 0, 0, 1, 0, 0, 0]))

/-- R80: ENC.START sets every register of ENC to its start value and nothing else, whatever ENC was doing. -/
def Obligations.EncStartBeginsStream : Prop :=
  ∀ s v tb, tb ≠ 0 →
    exec (.encStart v tb) s = .next ({ s with enc := ⟨true, v, tb, false, .idle, false, 0, 0⟩ }.answered 0 0)

/-- R81, R82, R85: in a running ENC the data commands send their bits through the line encoder and the modulator, an
octet most significant bit first, ENC.PRE as `n` octets 0xE5, and do nothing else. -/
def Obligations.EncDataCommandsEncode : Prop :=
  (∀ s d, s.enc.run = true → exec (.encBit d) s = .next ((s.sentData [d]).answered 0 0)) ∧
  (∀ s b, s.enc.run = true → exec (.encByte b) s = .next ((s.sentData (bits [b])).answered 0 0)) ∧
  (∀ s n, s.enc.run = true →
    exec (.encPre n) s = .next ((s.sentData (bits (List.replicate n.toNat 0xE5))).answered 0 0))

/-- R79: ENC.FLUSH completes a pending RLL27 pattern with zeros, emits the codeword the rule lists for each pending
state and returns to the initial state; under another scheme it does nothing. -/
def Obligations.EncFlushCompletesPattern : Prop :=
  (∀ s, s.enc.run = true → s.enc.scheme ≠ .rll27 → exec .encFlush s = .next (s.answered 0 0)) ∧
  (∀ s code, s.enc.run = true → s.enc.scheme = .rll27 →
    (s.enc.rllState, code.map Bool.toNat) ∈
      [(RllState.idle, []), (.one, [1, 0, 0, 0]), (.zero, [0, 0, 0, 1, 0, 0]), (.zeroOne, [0, 0, 1, 0, 0, 0]),
        (.zeroZero, [0, 0, 0, 1, 0, 0]), (.zeroZeroOne, [0, 0, 1, 0, 0, 1, 0, 0])] →
    exec .encFlush s =
      .next (({ s with enc := { s.enc with rllState := .idle } }.sentCode code).answered 0 0))

/-- R83, R84: ENC.RAW and ENC.SYNC flush, then send their code bits past the line encoder: `MFM_PREV` and `ENC_DCNT` keep
their values; the marker is the fixed one whatever `MARKER` holds, and it inverts the level. -/
def Obligations.EncRawAndSyncBypassTheEncoder : Prop :=
  (∀ s c, s.enc.run = true → exec (.encRaw c) s = .next ((s.flushed.sentCode [c]).answered 0 0)) ∧
  (∀ s, s.enc.run = true →
    exec .encSync s =
      .next ((s.flushed.sentCode ([1, 0, 0, 0, 1, 0, 0, 1, 0, 0, 0, 1, 0, 0, 1].map (fun n => n == 1))).answered 0 0)) ∧
  (∀ s t, exec .encSync s = .next t → s.enc.run = true →
    t.enc.mfmPrev = s.enc.mfmPrev ∧ t.enc.dcnt = s.enc.dcnt ∧ t.enc.nrziLevel = !s.flushed.enc.nrziLevel)

/-- R88: from any state, ENC.START, ENC.BYTE for each octet and ENC.FLUSH emit exactly `bitstream_v(o)` on CODE and
exactly `modulate(bitstream_v(o), tb)` on LEVEL; and the lengths of the streams. -/
def Obligations.EncodedStreamIsBitstream : Prop :=
  (∀ (s : State) (v : Scheme) (tb : BitVec 32) (os : List Byte), tb ≠ 0 → ∃ t,
    execAll (.encStart v tb :: os.map .encByte ++ [.encFlush]) s = .next t ∧
    t.ports = { s.ports with
      code := s.ports.code ++ bitstream v os
      level := s.ports.level ++ modulate (bitstream v os) tb.toNat
      amp := s.ports.amp ++ (modulate (bitstream v os) tb.toNat).map ampOf } ∧
    t.enc.dcnt = 8 * os.length ∧ t.enc.ccnt = (bitstream v os).length ∧
    t.cfg = s.cfg ∧ t.status = s.status ∧ t.dem = s.dem ∧ t.scn = s.scn ∧ t.cdrf = s.cdrf ∧ t.cdrx = s.cdrx) ∧
  (∀ os : List Byte, (bitstream .direct os).length = 8 * os.length ∧ (bitstream .fm os).length = 16 * os.length ∧
    (bitstream .mfm os).length = 16 * os.length) ∧
  (∀ os : List Byte, ∃ z, z ≤ 2 ∧ z = flushZeros (leRun .rll27 .start (bits os)).1.rll ∧
    (leRun .rll27 .start (bits os ++ List.replicate z false)).1.rll = .idle ∧
    (bitstream .rll27 os).length = 2 * (8 * os.length + z))

/-- R74: in any FM code-bit stream every even-indexed bit is 1, so two 0s never stand together. -/
def Obligations.FmRunLength : Prop :=
  ∀ st ds, (∀ k, 2 * k < (leRun .fm st ds).2.length → (leRun .fm st ds).2[2 * k]? = some true) ∧
    ∀ n, true :: (List.replicate n false ++ [true]) <:+: (leRun .fm st ds).2 → n ≤ 1

/-- R76: in an MFM code-bit stream, from either previous bit, between one and three 0s separate two consecutive 1s; the
sync marker stands in no such stream, though its own gaps of 3, 2, 3, 2 zeros are legal. -/
def Obligations.MfmRunLength : Prop :=
  (∀ st ds n, true :: (List.replicate n false ++ [true]) <:+: (leRun .mfm st ds).2 → 1 ≤ n ∧ n ≤ 3) ∧
  (∀ st ds, ¬ Config.syncMarker <:+: (leRun .mfm st ds).2) ∧
  Config.syncMarker = true :: [3, 2, 3, 2].flatMap (fun n => List.replicate n false ++ [true])

/-- R86: in every RLL27 code-bit stream between two and seven 0s separate two consecutive 1s. -/
def Obligations.RllRunLength : Prop :=
  ∀ os n, true :: (List.replicate n false ++ [true]) <:+: bitstream .rll27 os → 2 ≤ n ∧ n ≤ 7

/-- R210: a data command to a unit that cannot take it is answered `(0x13, 0)`, sets `STATUS.NOTRUN` and changes nothing
else. -/
def Obligations.NotRunningRefusesDataCommands : Prop :=
  ∀ (s : State) (i : Instr),
    (((∃ b, i = .encByte b) ∨ (∃ d, i = .encBit d) ∨ (∃ c, i = .encRaw c) ∨ i = .encSync ∨ i = .encFlush ∨
        (∃ n, i = .encPre n)) ∧ s.enc.run = false ∨
      (∃ l, i = .demLevel l) ∧ s.dem.run = false ∨
      (∃ c, i = .scnBit c) ∧ ((s.scn.phase ≠ .scan ∧ s.scn.phase ≠ .payload) ∨ s.scn.halt = true) ∨
      i = .scnEnd ∧ (s.scn.phase = .idle ∨ s.scn.phase = .done) ∨
      ((∃ b, i = .cdrfSample b) ∨ (∃ a, i = .cdrfAmp a)) ∧ s.cdrf.run = false ∨
      ((∃ b, i = .cdrxSample b) ∨ (∃ a, i = .cdrxAmp a)) ∧ (s.cdrx.run = false ∨ s.cdrx.halt = true)) →
    exec i s = .next ({ s with status := s.status ||| 0x200 }.answered 0x13 0)

/-! ### NRZI and DEM -/

/-- R104: demodulating a modulated stream gives it back without its first bit, or whole with a reference level 0 first;
with `tb > 1` the surviving code bits stand `tb - 1` zeros apart. -/
def Obligations.DemodulateInvertsModulate : Prop :=
  (∀ c, demodulate (modulate c 1) = c.tail) ∧ (∀ c, demodulate (false :: modulate c 1) = c) ∧
  (∀ c0 c tb, 1 < tb →
    demodulate (modulate (c0 :: c) tb) =
      List.replicate (tb - 1) false ++ c.flatMap (fun x => x :: List.replicate (tb - 1) false) ∧
    (demodulate (modulate (c0 :: c) tb)).length = tb * (c0 :: c).length - 1)

/-- R108, R109: DEM.START begins a stream; the first sample is only remembered, a later one emits whether it differs from
the one before it; nothing is forwarded while `CHAIN[2] = 0`, and nothing else changes. -/
def Obligations.DemSamplesCompareNeighbours : Prop :=
  (∀ s, exec .demStart s = .next ({ s with dem := ⟨true, false, false, 0⟩ }.answered 0 0)) ∧
  (∀ s l, s.dem.run = true → s.dem.haveSample = false →
    exec (.demLevel l) s = .next ({ s with dem := { s.dem with prev := l, haveSample := true } }.answered 0 0)) ∧
  (∀ s l, s.dem.run = true → s.dem.haveSample = true → s.cfg.chain.getLsbD 2 = false →
    exec (.demLevel l) s = .next ({ s with
      dem := { s.dem with prev := l, cnt := s.dem.cnt + 1 }
      ports := { s.ports with demod := s.ports.demod ++ [s.dem.prev ^^ l] } }.answered 0 0))

/-- R109: the sequence DEM emits for the samples it is given is `demodulate` of them, `n` samples giving `n - 1` code
bits. -/
def Obligations.DemStreamDemodulates : Prop :=
  ∀ (s : State) (ls : List Bit), s.cfg.chain.getLsbD 2 = false → ∃ t,
    execAll (.demStart :: ls.map .demLevel) s = .next t ∧
    t.ports = { s.ports with demod := s.ports.demod ++ demodulate ls } ∧ t.dem.cnt = ls.length - 1 ∧
    t.dem.run = true ∧ t.enc = s.enc ∧ t.scn = s.scn ∧ t.cdrf = s.cdrf ∧ t.cdrx = s.cdrx ∧ t.status = s.status

/-- R88 and R104 together on the machine: the levels ENC wrote at `tb = 1`, given to DEM after one reference level 0,
come back as exactly the code bits ENC emitted, for every scheme and every octet sequence. -/
def Obligations.DemRecoversWhatEncSent : Prop :=
  ∀ (s : State) (v : Scheme) (os : List Byte), s.cfg.chain.getLsbD 2 = false → ∃ (t u : State) (lv : List Bit),
    execAll (.encStart v 1 :: os.map .encByte ++ [.encFlush]) s = .next t ∧
    t.ports.level = s.ports.level ++ lv ∧
    execAll (.demStart :: .demLevel false :: lv.map .demLevel) t = .next u ∧
    ∃ cs : List Bit, t.ports.code = s.ports.code ++ cs ∧ u.ports.demod = s.ports.demod ++ cs

/-! ### SCN -/

/-- R116: SCN.START sets every register of SCN to its start value, with the marker and its length latched. -/
def Obligations.ScnStartBeginsScan : Prop :=
  ∀ s v, exec (.scnStart v) s = .next ({ s with
    scn := ⟨.scan, v, s.cfg.marker, s.cfg.markerLen, 0, 0, false, 0, false, 0, 0, 0, 0, 0, 0, 0, 0, 0⟩ }.answered 0 0)

/-- R117, scanning: the shift register takes the bit in, and the marker is found when at least `L` bits were seen and the
register equals it modulo `2^L`; nothing else changes. -/
def Obligations.ScnBitScansForTheMarker : Prop :=
  ∀ s c, s.scn.phase = .scan → s.scn.halt = false →
    let n := (2 * s.scn.sr.toNat + c.toNat) % 2 ^ s.scn.l.toNat
    (s.scn.l.toNat ≤ s.scn.idx + 1 ∧ n = s.scn.m.toNat % 2 ^ s.scn.l.toNat →
      exec (.scnBit c) s = .next ({ s with scn := { s.scn with
        sr := BitVec.ofNat 64 n, idx := s.scn.idx + 1
        found := true, pos := s.scn.idx + 1, phase := .payload } }.answered 0 0)) ∧
    (s.scn.l.toNat ≤ 64 → ¬(s.scn.l.toNat ≤ s.scn.idx + 1 ∧ n = s.scn.m.toNat % 2 ^ s.scn.l.toNat) →
      exec (.scnBit c) s = .next ({ s with scn := { s.scn with
        sr := BitVec.ofNat 64 n, idx := s.scn.idx + 1 } }.answered 0 0))

/-- R119: for the three payload schemes without a violation, the bit-serial scanner computes `scan`: found and position,
or not found and no position; all the bits counted; the octets those of the payload decoder applied to what follows the
marker. RLL27 payloads are not in it: RllPayloadBit and RllFrameRoundTrip speak of them. -/
def Obligations.ScannerComputesScan : Prop :=
  ∀ (s : State) (v : Scheme) (cs : List Bit), v ≠ .rll27 → 1 ≤ s.cfg.markerLen.toNat → s.cfg.markerLen.toNat ≤ 64 → ∃ t,
    execAll (.scnStart v :: cs.map .scnBit) s = .next t ∧ t.scn.idx = cs.length ∧
    (∀ q, scan (markerBits s.cfg.marker s.cfg.markerLen.toNat) cs = some q ↔ t.scn.found = true ∧ t.scn.pos = q) ∧
    (scan (markerBits s.cfg.marker s.cfg.markerLen.toNat) cs = none ↔ t.scn.found = false) ∧
    (t.scn.found = false → t.scn.pos = 0 ∧ t.ports = s.ports) ∧
    (t.scn.found = true → t.ports = { s.ports with
      byte := s.ports.byte ++ (octetsOf (payloadData v (cs.drop t.scn.pos))).1 })

/-- R121 to R124: a payload code bit under Direct is a data bit; under FM and MFM it is one at an odd payload index and
is ignored at an even one; the octet assembler takes it, and nothing else changes. -/
def Obligations.PayloadBitsReachTheAssembler : Prop :=
  (∀ s c, s.scn.phase = .payload → s.scn.halt = false →
    s.scn.dscheme = .direct ∨ (s.scn.dscheme = .fm ∨ s.scn.dscheme = .mfm) ∧ s.scn.payIdx % 2 = 1 →
    exec (.scnBit c) s = .next ({ s.assembled c with scn := { (s.assembled c).scn with
      payIdx := s.scn.payIdx + 1, idx := s.scn.idx + 1 } }.answered 0 0)) ∧
  (∀ s c, s.scn.phase = .payload → s.scn.halt = false →
    (s.scn.dscheme = .fm ∨ s.scn.dscheme = .mfm) → s.scn.payIdx % 2 = 0 →
    exec (.scnBit c) s = .next ({ s with scn := { s.scn with
      payIdx := s.scn.payIdx + 1, idx := s.scn.idx + 1 } }.answered 0 0))

/-- R125: an RLL27 payload bit completes a codeword and delivers its pattern, or extends one of the 21 prefixes, or
makes one of the 16 strings at which CodeViolation halts the unit. `w` is the string of collected bits and the new one. -/
def Obligations.RllPayloadBit : Prop :=
  ∀ s c w, s.scn.phase = .payload → s.scn.halt = false → s.scn.dscheme = .rll27 →
    (collectedBits s.scn ++ [c]).map Bool.toNat = w →
    (∀ pat : List Bit, (w, pat.map Bool.toNat) ∈
        [([0, 1, 0, 0], [1, 1]), ([1, 0, 0, 0], [1, 0]), ([1, 0, 0, 1, 0, 0], [0, 1, 1]),
          ([0, 0, 1, 0, 0, 0], [0, 1, 0]), ([0, 0, 0, 1, 0, 0], [0, 0, 0]),
          ([0, 0, 1, 0, 0, 1, 0, 0], [0, 0, 1, 0]), ([0, 0, 0, 0, 1, 0, 0, 0], [0, 0, 1, 1])] →
      let t := pat.foldl State.assembled s
      exec (.scnBit c) s = .next ({ t with scn := { t.scn with
        cbuf := 0, clen := 0, payIdx := s.scn.payIdx + 1, idx := s.scn.idx + 1 } }.answered 0 0)) ∧
    (w ∈ [[0], [1], [0, 0], [0, 1], [1, 0], [0, 0, 0], [0, 0, 1], [0, 1, 0], [1, 0, 0], [0, 0, 0, 0], [0, 0, 0, 1],
          [0, 0, 1, 0], [1, 0, 0, 1], [0, 0, 0, 0, 1], [0, 0, 0, 1, 0], [0, 0, 1, 0, 0], [1, 0, 0, 1, 0],
          [0, 0, 0, 0, 1, 0], [0, 0, 1, 0, 0, 1], [0, 0, 0, 0, 1, 0, 0], [0, 0, 1, 0, 0, 1, 0]] →
      exec (.scnBit c) s = .next ({ s with scn := { s.scn with
        cbuf := BitVec.ofNat 8 (w.foldl (fun a b => 2 * a + b) 0), clen := BitVec.ofNat 4 w.length
        payIdx := s.scn.payIdx + 1, idx := s.scn.idx + 1 } }.answered 0 0)) ∧
    (w ∈ [[1, 1], [0, 1, 1], [1, 0, 1], [0, 0, 1, 1], [0, 1, 0, 1], [0, 0, 0, 0, 0], [0, 0, 0, 1, 1], [0, 0, 1, 0, 1],
          [1, 0, 0, 1, 1], [0, 0, 0, 0, 1, 1], [0, 0, 0, 1, 0, 1], [1, 0, 0, 1, 0, 1], [0, 0, 0, 0, 1, 0, 1],
          [0, 0, 1, 0, 0, 1, 1], [0, 0, 0, 0, 1, 0, 0, 1], [0, 0, 1, 0, 0, 1, 0, 1]] →
      exec (.scnBit c) s = .next ({ s with
        scn := { s.scn with halt := true, evidx := s.scn.idx }
        status := s.status ||| 0x20 }.answered 0x05 (BitVec.ofNat 64 s.scn.idx)))

/-- R234: a frame of the marker, with no lead before it, and `bitstream_RLL27(o)` decodes to `o`; the `z` padding zeros
of the encoder's flush come out as data bits and SCN.END reports TruncatedFrame(z), or OK when there are none. -/
def Obligations.RllFrameRoundTrip : Prop :=
  ∀ (s : State) (os : List Byte), 1 ≤ s.cfg.markerLen.toNat → s.cfg.markerLen.toNat ≤ 64 → ∃ t,
    execAll (.scnStart .rll27 ::
      (markerBits s.cfg.marker s.cfg.markerLen.toNat ++ bitstream .rll27 os).map .scnBit ++ [.scnEnd]) s = .next t ∧
    t.ports = { s.ports with byte := s.ports.byte ++ os } ∧
    let z := flushZeros (leRun .rll27 .start (bits os)).1.rll
    t.response = some (if z = 0 then ⟨0, 0⟩ else ⟨0x02, BitVec.ofNat 64 z⟩) ∧ t.scn.discard.toNat = z

/-- R126, with `decode_mfm` of R120 and R121: an MFM frame after any lead that makes no earlier match decodes to its
octets, with nothing discarded. -/
def Obligations.MfmFrameRoundTrip : Prop :=
  ∀ (s : State) (x : List Bit) (os : List Byte), s.cfg.marker = 0x4489 → s.cfg.markerLen = 15 →
    scan Config.syncMarker (x ++ Config.syncMarker ++ bitstream .mfm os) = some (x.length + 15) → ∃ t,
    execAll (.scnStart .mfm :: (x ++ Config.syncMarker ++ bitstream .mfm os).map .scnBit ++ [.scnEnd]) s = .next t ∧
    t.ports = { s.ports with byte := s.ports.byte ++ os } ∧ t.response = some ⟨0, 0⟩ ∧
    t.scn.discard = 0 ∧ t.scn.dangle = 0 ∧ t.scn.pos = x.length + 15

/-- R127: the four outcomes of SCN.END: marker never found, whole octets, a truncated frame, not running. -/
def Obligations.ScnEndOutcomes : Prop :=
  (∀ s, s.scn.phase = .scan → exec .scnEnd s = .next ({ s with
    status := s.status ||| 0x01
    scn := { s.scn with evidx := s.scn.idx, phase := .done } }.answered 0x01 (BitVec.ofNat 64 s.scn.idx))) ∧
  (∀ s dangle, s.scn.phase = .payload →
    dangle = (match s.scn.dscheme with
      | .direct => 0
      | .fm | .mfm => s.scn.payIdx % 2
      | .rll27 => s.scn.clen.toNat) →
    (s.scn.cnt = 0 → exec .scnEnd s = .next ({ s with
      scn := { s.scn with discard := 0, dangle := BitVec.ofNat 4 dangle, phase := .done } }.answered 0 0)) ∧
    (s.scn.cnt ≠ 0 → exec .scnEnd s = .next ({ s with
      status := s.status ||| 0x02
      scn := { s.scn with
        discard := s.scn.cnt, dangle := BitVec.ofNat 4 dangle, phase := .done
        evidx := s.scn.idx } }.answered 0x02 (s.scn.cnt.setWidth 64)))) ∧
  (∀ s, s.scn.phase = .idle ∨ s.scn.phase = .done →
    exec .scnEnd s = .next ({ s with status := s.status ||| 0x200 }.answered 0x13 0))

/-! ### CDRF -/

/-- R143: CDRF.START refuses with the lowest-numbered unwritten register of the three, or latches its constants and sets
every register of CDRF to its start value. -/
def Obligations.CdrfStartLatchesConstants : Prop :=
  (∀ s im az tb, s.cfg.integMax = some im → s.cfg.accSize = some az → s.cfg.tbC = some tb →
    exec .cdrfStart s = .next ({ s with cdrf :=
      { run := true
        latch := some ⟨az.toNat, s.cfg.alpha.num.toInt / s.cfg.alpha.den.toNat, s.cfg.ki.num.toInt / s.cfg.ki.den.toNat,
          s.cfg.kp.num.toInt / s.cfg.kp.den.toNat, im.num.toInt / im.den.toNat, 2 * az.toNat / tb.toNat⟩
        acc := 0, last := 0, pd := 0, pdf := 0, integ := 0, ftw := 2 * az.toNat / tb.toNat, prev := false
        idx := 0, nrec := 0, sat := 0, satFirst := 0 } }.answered 0 0)) ∧
  (∀ s i, (s.cfg.integMax = none ∧ i = 3) ∨ (s.cfg.integMax ≠ none ∧ s.cfg.accSize = none ∧ i = 4) ∨
      (s.cfg.integMax ≠ none ∧ s.cfg.accSize ≠ none ∧ s.cfg.tbC = none ∧ i = 5) →
    exec .cdrfStart s = .next ({ s with status := s.status ||| 0x100 }.answered 0x12 i))

/-- R144, R146, R150: the seven steps of one CDRF sample whose bit is not forwarded, with the response `(0x04, i)` when
the sum of step 5 is at or beyond the clamp; CDRF.AMP is the same with the amplitude sliced at 128. -/
def Obligations.CdrfSampleRunsTheSevenSteps : Prop :=
  ∀ s (b : Bit) (k : CdrfLatch), s.cdrf.run = true → s.cdrf.latch = some k →
    s.cfg.chain.extractLsb' 0 2 ≠ 1 ∨ ¬ s.cdrf.acc < s.cdrf.last →
    let u := s.cdrf
    let pd : Rat := if b = u.prev then u.pd else k.accsz / 2 - u.acc
    let pdf := pd * k.alpha + u.pdf * (1 - k.alpha)
    let sum := u.integ + pdf * k.ki
    let integ := if sum < -k.imax then -k.imax else if sum > k.imax then k.imax else sum
    let ftw := k.ftw0 + pdf * k.kp + integ
    let x := u.acc + ftw
    let wrap := u.acc < u.last
    let sat := k.imax ≤ sum ∨ sum ≤ -k.imax
    let t : State := { s with
      ports := { s.ports with recF := s.ports.recF ++ (if wrap then [b] else []) }
      status := if sat then s.status ||| 0x08 else s.status
      cdrf := { u with
        pd := pd, pdf := pdf, integ := integ, ftw := ftw, last := u.acc, prev := b
        acc := x - k.accsz * ((x / k.accsz).floor : Rat)
        idx := u.idx + 1, nrec := if wrap then u.nrec + 1 else u.nrec
        sat := if sat then u.sat + 1 else u.sat
        satFirst := if sat ∧ u.sat = 0 then u.idx else u.satFirst } }
    let r : State := if sat then t.answered 0x04 (BitVec.ofNat 64 u.idx) else t.answered 0 0
    exec (.cdrfSample b) s = .next r ∧ ∀ a : Byte, (b = true ↔ 128 < a.toNat) → exec (.cdrfAmp a) s = .next r

/-- R148: after every CDRF.SAMPLE in a good unit, `0 <= F_ACC < F_ACCSZ`, `-F_IMAX <= F_INTEG <= F_IMAX`,
`CDRF_NREC <= CDRF_IDX`, `CDRF_SAT <= CDRF_IDX`; the sample completes. -/
def Obligations.CdrfSampleKeepsBounds : Prop :=
  ∀ s b k, CdrfGood s.cdrf → s.cdrf.latch = some k → ∃ t, exec (.cdrfSample b) s = .next t ∧
    t.cdrf.latch = some k ∧ 0 ≤ t.cdrf.acc ∧ t.cdrf.acc < k.accsz ∧ -k.imax ≤ t.cdrf.integ ∧ t.cdrf.integ ≤ k.imax ∧
    t.cdrf.nrec ≤ t.cdrf.idx ∧ t.cdrf.sat ≤ t.cdrf.idx ∧ CdrfGood t.cdrf

/-- R147: with the loop's period `P = TB_C / 2` an even integer and the input `rep(0, P/2)` followed by symbols held `P`
samples each, the phase error stays 0 for ever and exactly one bit per symbol is recovered, the symbol itself. -/
def Obligations.ZeroPhaseErrorReal : Prop :=
  ∀ (s : State) im az tb (h : Nat) (xs : List Bit), s.cfg.integMax = some im → s.cfg.accSize = some az → s.cfg.tbC = some tb →
    az ≠ 0 → tb.toNat = 4 * h → 0 < h → 0 ≤ im.num.toInt → s.cfg.chain.extractLsb' 0 2 ≠ 1 → ∃ t,
    execAll (.cdrfStart ::
      (List.replicate h false ++ xs.flatMap (fun x => List.replicate (2 * h) x)).map .cdrfSample) s = .next t ∧
    t.ports = { s.ports with recF := s.ports.recF ++ xs } ∧
    t.cdrf.pd = 0 ∧ t.cdrf.pdf = 0 ∧ t.cdrf.integ = 0 ∧ t.cdrf.ftw = 2 * az.toNat / tb.toNat ∧
    t.cdrf.nrec = xs.length ∧ t.cdrf.idx = h + 2 * h * xs.length

/-! ### CDRX -/

/-- R161, R162: CDRX.START refuses an incomplete configuration and the first constant that does not fit; otherwise it
latches the six quantised constants and sets every register of CDRX to its start value. Said for every register width
`w`; the command is the one at this block's `W_FX`. -/
def Obligations.CdrxStartQuantises : Prop :=
  (∀ s im az tb, s.cfg.integMax = some im → s.cfg.accSize = some az → s.cfg.tbC = some tb →
    let q := fun (r : RatReg) => r.num.toInt * 2 ^ 20 / (r.den.toNat : Int)
    let vs : List Int := [q s.cfg.alpha, q s.cfg.ki, q s.cfg.kp, q im, az.toNat * 2 ^ 20, 2 * az.toNat * 2 ^ 20 / (tb.toNat : Int)]
    ((∀ v ∈ vs, fits v = true) →
      exec .cdrxStart s = .next ({ s with cdrx :=
        { run := true, prev := false, halt := false, idx := 0, nrec := 0, sat := 0, satFirst := 0, maxw := 0
          faultIdx := 0, faultStep := 0, acc := 0, last := 0, pd := 0, pdf := 0, integ := 0
          ftw := 2 * az.toNat * 2 ^ 20 / (tb.toNat : Int)
          latch := some ⟨q s.cfg.alpha, q s.cfg.ki, q s.cfg.kp, q im, az.toNat * 2 ^ 20,
            2 * az.toNat * 2 ^ 20 / (tb.toNat : Int)⟩ } }.answered 0 0)) ∧
    (∀ w (j : Nat) v, vs[j]? = some v → fitsIn w v = false → (∀ i < j, ∀ x, vs[i]? = some x → fitsIn w x = true) →
      fixedStart w s =
        .next ({ s with status := s.status ||| 0x100 }.answered 0x12 (BitVec.ofNat 64 (0x40 + j))))) ∧
  (∀ s, exec .cdrxStart s = fixedStart Config.fxWidthPred s) ∧
  (∀ s i, (s.cfg.integMax = none ∧ i = 3) ∨ (s.cfg.integMax ≠ none ∧ s.cfg.accSize = none ∧ i = 4) ∨
      (s.cfg.integMax ≠ none ∧ s.cfg.accSize ≠ none ∧ s.cfg.tbC = none ∧ i = 5) →
    exec .cdrxStart s = .next ({ s with status := s.status ||| 0x100 }.answered 0x12 i))

/-- R163, R167, R168, R170: one committed CDRX sample whose bit is not forwarded, when the four checked values fit,
with the response `(0x04, i)` when step 5 is at or beyond the clamp; CDRX.AMP is the same with the amplitude sliced at
128. -/
def Obligations.CdrxSampleCommits : Prop :=
  ∀ s (b : Bit) (k : CdrxLatch), s.cdrx.run = true → s.cdrx.halt = false → s.cdrx.latch = some k →
    s.cfg.chain.extractLsb' 0 2 ≠ 2 ∨ ¬ s.cdrx.acc < s.cdrx.last →
    let u := s.cdrx
    let pd : Int := if b = u.prev then u.pd else k.accsz / 2 - u.acc
    let pdf := pd * k.alpha / 2 ^ 20 + u.pdf * (2 ^ 20 - k.alpha) / 2 ^ 20
    let sum := u.integ + pdf * k.ki / 2 ^ 20
    let integ := if sum < -k.imax then -k.imax else if sum > k.imax then k.imax else sum
    let ftw := k.ftw0 + pdf * k.kp / 2 ^ 20 + integ
    fits pdf = true → fits sum = true → fits ftw = true → fits (u.acc + ftw) = true →
    let wrap := u.acc < u.last
    let sat := k.imax ≤ sum ∨ sum ≤ -k.imax
    let t : State := { s with
      ports := { s.ports with recX := s.ports.recX ++ (if wrap then [b] else []) }
      status := if sat then s.status ||| 0x10 else s.status
      cdrx := { u with
        pd := pd, pdf := pdf, integ := integ, ftw := ftw, last := u.acc, prev := b
        acc := (u.acc + ftw) % k.accsz, maxw := max u.maxw (widthS pdf)
        idx := u.idx + 1, nrec := if wrap then u.nrec + 1 else u.nrec
        sat := if sat then u.sat + 1 else u.sat
        satFirst := if sat ∧ u.sat = 0 then u.idx else u.satFirst } }
    let r : State := if sat then t.answered 0x04 (BitVec.ofNat 64 u.idx) else t.answered 0 0
    exec (.cdrxSample b) s = .next r ∧ ∀ a : Byte, (b = true ↔ 128 < a.toNat) → exec (.cdrxAmp a) s = .next r

/-- R166: the first value, in step order, that does not fit ends the sample with NumericOverflow: only `STATUS.OVF`,
`CDRX_HALT`, `CDRX_FAULT_IDX` and `CDRX_FAULT_STEP` change. Said for every register width `w`; with `inf` the event
cannot occur. -/
def Obligations.CdrxOverflowIsPrecise : Prop :=
  (∀ w s (b : Bit) (k : CdrxLatch) (j : Nat) v, s.cdrx.run = true → s.cdrx.halt = false → s.cdrx.latch = some k →
    let u := s.cdrx
    let pd : Int := if b = u.prev then u.pd else k.accsz / 2 - u.acc
    let pdf := pd * k.alpha / 2 ^ 20 + u.pdf * (2 ^ 20 - k.alpha) / 2 ^ 20
    let sum := u.integ + pdf * k.ki / 2 ^ 20
    let integ := if sum < -k.imax then -k.imax else if sum > k.imax then k.imax else sum
    let ftw := k.ftw0 + pdf * k.kp / 2 ^ 20 + integ
    [pdf, sum, ftw, u.acc + ftw][j]? = some v → fitsIn w v = false →
    (∀ i < j, ∀ x, [pdf, sum, ftw, u.acc + ftw][i]? = some x → fitsIn w x = true) →
    fixedCommand w b s = .next ({ s with
      status := s.status ||| 0x04
      cdrx := { u with halt := true, faultIdx := u.idx, faultStep := BitVec.ofNat 3 (4 + j) }
      }.answered 0x03 (BitVec.ofNat 64 u.idx))) ∧
  (∀ s b, exec (.cdrxSample b) s = fixedCommand Config.fxWidthPred b s) ∧
  (∀ s a, exec (.cdrxAmp a) s = fixedCommand Config.fxWidthPred (decide (128 < a.toNat)) s) ∧
  (∀ v, fitsIn none v = true)

/-- `fits` (spec/00_scope.md section 6; the range R166 checks) and `width_s` (section 6; the width R167 tracks): `fits`
at `n + 1` bits is the two's-complement range, `width_s` is the least width whose range holds the value, and a value
fits a width exactly when its `width_s` is at most it. -/
def Obligations.WidthIsTheLeastThatHolds : Prop :=
  (∀ v, 1 ≤ widthS v ∧ -(2 ^ (widthS v - 1)) ≤ v ∧ v < 2 ^ (widthS v - 1) ∧
    ∀ n, 1 ≤ n → -(2 ^ (n - 1)) ≤ v → v < 2 ^ (n - 1) → widthS v ≤ n) ∧
  (∀ n v, fitsIn (some n) v = true ↔ widthS v ≤ n + 1)

/-- R171: after every command in a good state, `0 <= X_ACC < X_ACCSZ` and `-X_IMAX <= X_INTEG <= X_IMAX` for the
constants the unit was started with, and `X_PD`, `X_PDF`, `X_INTEG`, `X_FTW` fit; a command that halts the unit leaves
`STATUS.OVF` set. -/
def Obligations.CdrxInvariantAfterEveryCommand : Prop :=
  ∀ i s, Machine.Inv s → ∃ t, exec i s = .next t ∧
    (∀ k, t.cdrx.latch = some k →
      0 ≤ t.cdrx.acc ∧ t.cdrx.acc < k.accsz ∧ -k.imax ≤ t.cdrx.integ ∧ t.cdrx.integ ≤ k.imax) ∧
    (fits t.cdrx.pd = true ∧ fits t.cdrx.pdf = true ∧ fits t.cdrx.integ = true ∧ fits t.cdrx.ftw = true) ∧
    (s.cdrx.halt = false → t.cdrx.halt = true → t.status.getLsbD 2 = true) ∧ CdrxGood t.cdrx

/-- R172: under the conditions of R147, and with `X_FTW0 * TB_C = (2 * ACC_SIZE) << 20` exactly, the fixed-point path
has no phase error either, recovers the same symbols and reports a width of 1. Said for every register width `w` at
which the start is accepted. -/
def Obligations.ZeroPhaseErrorFixed : Prop :=
  (∀ w (s : State) im az tb (h : Nat) (xs : List Bit), s.cfg.integMax = some im → s.cfg.accSize = some az → s.cfg.tbC = some tb →
    az ≠ 0 → tb.toNat = 4 * h → 0 < h → 0 ≤ im.num.toInt → s.cfg.chain.extractLsb' 0 2 ≠ 2 →
    (2 * az.toNat * 2 ^ 20) % (4 * h) = 0 → firstUnfit w (fixedLatch s.cfg im az tb) = none → ∃ t,
    fixedRun w (List.replicate h false ++ xs.flatMap (fun x => List.replicate (2 * h) x)) s = .next t ∧
    t.ports = { s.ports with recX := s.ports.recX ++ xs } ∧
    t.cdrx.pd = 0 ∧ t.cdrx.pdf = 0 ∧ t.cdrx.integ = 0 ∧ t.cdrx.ftw * tb.toNat = 2 * az.toNat * 2 ^ 20 ∧
    t.cdrx.maxw = 1 ∧ t.cdrx.nrec = xs.length ∧ t.cdrx.idx = h + 2 * h * xs.length) ∧
  (∀ (bs : List Bit) (s : State), execAll (.cdrxStart :: bs.map .cdrxSample) s = fixedRun Config.fxWidthPred bs s)

/-- A loop unit that runs with unwritten constants is no state any run reaches (R225); there the model stops (log
entry 9). -/
def Obligations.RunningWithoutConstantsStops : Prop :=
  (∀ s b, s.cdrf.run = true → s.cdrf.latch = none → exec (.cdrfSample b) s = .fault (.latchUnwritten .real)) ∧
  (∀ s a, s.cdrf.run = true → s.cdrf.latch = none → exec (.cdrfAmp a) s = .fault (.latchUnwritten .real)) ∧
  (∀ s b, s.cdrx.run = true → s.cdrx.halt = false → s.cdrx.latch = none →
    exec (.cdrxSample b) s = .fault (.latchUnwritten .fixed)) ∧
  (∀ s a, s.cdrx.run = true → s.cdrx.halt = false → s.cdrx.latch = none →
    exec (.cdrxAmp a) s = .fault (.latchUnwritten .fixed))

/-! ### The chain -/

/-- R16, R110: a bit DEM emits with `CHAIN[2] = 1` is given to SCN, after DEM's own step, exactly as by SCN.BIT, or
dropped with `STATUS.DROP` if SCN does not run. -/
def Obligations.DemForwardsToScn : Prop :=
  ∀ s l, s.dem.run = true → s.dem.haveSample = true → s.cfg.chain.getLsbD 2 = true →
    let c := s.dem.prev ^^ l
    let own : State := { s with
      dem := { s.dem with prev := l, cnt := s.dem.cnt + 1 }
      ports := { s.ports with demod := s.ports.demod ++ [c] } }
    ((s.scn.phase = .scan ∨ s.scn.phase = .payload) ∧ s.scn.halt = false →
      exec (.demLevel l) s = exec (.scnBit c) own) ∧
    (¬((s.scn.phase = .scan ∨ s.scn.phase = .payload) ∧ s.scn.halt = false) →
      exec (.demLevel l) s = .next ({ own with status := s.status ||| 0x400 }.answered 0 0))

/-- R16, R110, R203: a bit the selected loop path recovers is given to DEM after the loop's own step (what the sample
leaves with `CHAIN = 0`) exactly as by DEM.LEVEL, or dropped with `STATUS.DROP`; the loop's own response stands unless
the chain raised CodeViolation. R150, R170: an amplitude command is the sample command of the amplitude sliced at 128. -/
def Obligations.LoopsForwardToDem : Prop :=
  (∀ s b own, s.cdrf.run = true → s.cdrf.acc < s.cdrf.last → s.cfg.chain.extractLsb' 0 2 = 1 →
    exec (.cdrfSample b) { s with cfg := { s.cfg with chain := 0 } } = .next own →
    (s.dem.run = true → ∃ u, exec (.demLevel b) { own with cfg := s.cfg } = .next u ∧
      exec (.cdrfSample b) s =
        .next (if u.response.map (fun r => r.st) = some 0x05 then u else { u with response := own.response })) ∧
    (s.dem.run = false →
      exec (.cdrfSample b) s = .next { own with cfg := s.cfg, status := own.status ||| 0x400 })) ∧
  (∀ s b own, s.cdrx.run = true → s.cdrx.halt = false → s.cdrx.acc < s.cdrx.last →
    s.cfg.chain.extractLsb' 0 2 = 2 →
    exec (.cdrxSample b) { s with cfg := { s.cfg with chain := 0 } } = .next own → own.cdrx.halt = false →
    (s.dem.run = true → ∃ u, exec (.demLevel b) { own with cfg := s.cfg } = .next u ∧
      exec (.cdrxSample b) s =
        .next (if u.response.map (fun r => r.st) = some 0x05 then u else { u with response := own.response })) ∧
    (s.dem.run = false →
      exec (.cdrxSample b) s = .next { own with cfg := s.cfg, status := own.status ||| 0x400 })) ∧
  (∀ s a, exec (.cdrfAmp a) s = exec (.cdrfSample (decide (128 < a.toNat))) s) ∧
  (∀ s a, exec (.cdrxAmp a) s = exec (.cdrxSample (decide (128 < a.toNat))) s)

/-- R211: if one sample both saturates and makes the chained scanner meet a violation, both `STATUS` bits are set and the
response is CodeViolation's. -/
def Obligations.CodeViolationOutranksSaturation : Prop :=
  ∀ s b k, s.cdrf.run = true → s.cdrf.latch = some k → s.cdrf.acc < s.cdrf.last → s.cfg.chain = 5 →
    s.dem.run = true → s.dem.haveSample = true → s.scn.phase = .payload → s.scn.halt = false →
    s.scn.dscheme = .rll27 → collectedBits s.scn = [true] → s.dem.prev ≠ b → realHits k b s.cdrf = true →
    ∃ t, exec (.cdrfSample b) s = .next t ∧ t.response = some ⟨0x05, BitVec.ofNat 64 s.scn.idx⟩ ∧
      t.status.getLsbD 3 = true ∧ t.status.getLsbD 5 = true ∧ t.scn.halt = true ∧
      t.cdrf = realSample k b s.cdrf ∧ t.dem = { s.dem with prev := b, cnt := s.dem.cnt + 1 } ∧
      t.ports = { s.ports with recF := s.ports.recF ++ [b], demod := s.ports.demod ++ [true] }

/-! ### WR and RD -/

/-- R188: a `WR` of a legal value stores it in its register and changes nothing else. -/
def Obligations.WriteStoresLegalValue : Prop :=
  ∀ s : State,
    (∀ n d, d ≠ 0 → exec (.wrAlpha n d) s = .next ({ s with cfg := { s.cfg with alpha := ⟨n, d⟩ } }.answered 0 0)) ∧
    (∀ n d, d ≠ 0 → exec (.wrKi n d) s = .next ({ s with cfg := { s.cfg with ki := ⟨n, d⟩ } }.answered 0 0)) ∧
    (∀ n d, d ≠ 0 → exec (.wrKp n d) s = .next ({ s with cfg := { s.cfg with kp := ⟨n, d⟩ } }.answered 0 0)) ∧
    (∀ n d, d ≠ 0 → 0 ≤ n.toInt →
      exec (.wrIntegMax n d) s = .next ({ s with cfg := { s.cfg with integMax := some ⟨n, d⟩ } }.answered 0 0)) ∧
    (∀ v, v ≠ 0 → exec (.wrAccSize v) s = .next ({ s with cfg := { s.cfg with accSize := some v } }.answered 0 0)) ∧
    (∀ v, v ≠ 0 → exec (.wrTbC v) s = .next ({ s with cfg := { s.cfg with tbC := some v } }.answered 0 0)) ∧
    (∀ v, v.toNat % 4 ≠ 3 → exec (.wrChain v) s = .next ({ s with cfg := { s.cfg with chain := v } }.answered 0 0)) ∧
    (∀ v, exec (.wrMarker v) s = .next ({ s with cfg := { s.cfg with marker := v } }.answered 0 0)) ∧
    (∀ v, 1 ≤ v.toNat → v.toNat ≤ 64 →
      exec (.wrMarkerLen v) s = .next ({ s with cfg := { s.cfg with markerLen := v } }.answered 0 0))

/-- R59: operand values that decode but are illegal are answered `(0x11, op)` and change no state but `STATUS.BADOP`; the
ill-formed commands are exactly those the rule lists. -/
def Obligations.IllegalOperandChangesNothingElse : Prop :=
  (∀ s i, i.wf = false →
    exec i s = .next ({ s with status := s.status ||| 0x80 }.answered 0x11 ((opOf (encode i)).setWidth 64))) ∧
  (∀ i : Instr, i.wf = false ↔
    (∃ v, i = .encStart v 0) ∨ (∃ n, i = .wrAlpha n 0 ∨ i = .wrKi n 0 ∨ i = .wrKp n 0 ∨ i = .wrIntegMax n 0) ∨
    (∃ n d, i = .wrIntegMax n d ∧ n.toInt < 0) ∨ i = .wrAccSize 0 ∨ i = .wrTbC 0 ∨
    (∃ v, i = .wrChain v ∧ v.toNat % 4 = 3) ∨ (∃ v, i = .wrMarkerLen v ∧ (v = 0 ∨ 64 < v.toNat)))

/-- R189: `RD` of each configuration register answers it, a rational as the pair packed as it was written, an unwritten
one with BadConfig and its index. -/
def Obligations.ReadConfiguration : Prop :=
  ∀ s : State,
    let rat := fun (r : RatReg) => BitVec.ofNat 64 (r.num.toNat * 2 ^ 32 + r.den.toNat)
    let bad := fun (i : BitVec 64) => ({ s with status := s.status ||| 0x100 } : State).answered 0x12 i
    exec .rdAlpha s = .next (s.answered 0 (rat s.cfg.alpha)) ∧ exec .rdKi s = .next (s.answered 0 (rat s.cfg.ki)) ∧
    exec .rdKp s = .next (s.answered 0 (rat s.cfg.kp)) ∧
    (∀ r, s.cfg.integMax = some r → exec .rdIntegMax s = .next (s.answered 0 (rat r))) ∧
    (s.cfg.integMax = none → exec .rdIntegMax s = .next (bad 3)) ∧
    (∀ v, s.cfg.accSize = some v → exec .rdAccSize s = .next (s.answered 0 (BitVec.ofNat 64 v.toNat))) ∧
    (s.cfg.accSize = none → exec .rdAccSize s = .next (bad 4)) ∧
    (∀ v, s.cfg.tbC = some v → exec .rdTbC s = .next (s.answered 0 (BitVec.ofNat 64 v.toNat))) ∧
    (s.cfg.tbC = none → exec .rdTbC s = .next (bad 5)) ∧
    exec .rdChain s = .next (s.answered 0 (BitVec.ofNat 64 s.cfg.chain.toNat)) ∧
    exec .rdMarker s = .next (s.answered 0 s.cfg.marker) ∧
    exec .rdMarkerLen s = .next (s.answered 0 (BitVec.ofNat 64 s.cfg.markerLen.toNat))

/-- R18, R19, R21, R22, R189: `RD` of `STATUS` and of the registers and packed views of ENC, DEM and SCN, bit field by
bit field as numbers. -/
def Obligations.ReadStatusEncDemScn : Prop :=
  ∀ s : State,
    let ans := fun (n : Nat) => s.answered 0 (BitVec.ofNat 64 n)
    let rll := match s.enc.rllState with
      | .idle => 0 | .one => 1 | .zero => 2 | .zeroOne => 3 | .zeroZero => 4 | .zeroZeroOne => 5
    let scheme := fun (v : Scheme) => match v with | .direct => 0 | .fm => 1 | .mfm => 2 | .rll27 => 3
    let phase := match s.scn.phase with | .idle => 0 | .scan => 1 | .payload => 2 | .done => 3
    exec .rdStatus s = .next (s.answered 0 s.status) ∧
    (exec .rdEncState s = .next (ans (s.enc.run.toNat + 2 * scheme s.enc.scheme + 8 * s.enc.mfmPrev.toNat + 16 * rll
        + 128 * s.enc.nrziLevel.toNat)) ∧
      exec .rdEncTb s = .next (ans s.enc.tb.toNat) ∧ exec .rdEncDcnt s = .next (ans s.enc.dcnt) ∧
      exec .rdEncCcnt s = .next (ans s.enc.ccnt)) ∧
    (exec .rdDemState s = .next (ans (s.dem.run.toNat + 2 * s.dem.haveSample.toNat + 4 * s.dem.prev.toNat)) ∧
      exec .rdDemCnt s = .next (ans s.dem.cnt)) ∧
    (exec .rdScnState s =
        .next (ans (phase + 4 * scheme s.scn.dscheme + 16 * s.scn.found.toNat + 32 * s.scn.halt.toNat)) ∧
      exec .rdScnIdx s = .next (ans s.scn.idx) ∧ exec .rdScnPos s = .next (ans s.scn.pos) ∧
      exec .rdDecNbytes s = .next (ans s.scn.nbytes) ∧ exec .rdDecDiscard s = .next (ans s.scn.discard.toNat) ∧
      exec .rdDecDangle s = .next (ans s.scn.dangle.toNat) ∧ exec .rdScnSr s = .next (s.answered 0 s.scn.sr) ∧
      exec .rdDecAsm s = .next (ans (s.scn.shift.toNat + 2 ^ 8 * s.scn.cnt.toNat + 2 ^ 11 * s.scn.clen.toNat
        + 2 ^ 15 * s.scn.cbuf.toNat)) ∧
      exec .rdScnEvidx s = .next (ans s.scn.evidx))

/-- R23, R24, R45, R189: `RD` of the registers of the two loops: counters and views; fixed-point values as signed numbers
modulo 2^64; the latched constants of CDRX, or BadConfig with the index while they are unwritten. -/
def Obligations.ReadLoops : Prop :=
  ∀ s : State,
    let ans := fun (n : Nat) => s.answered 0 (BitVec.ofNat 64 n)
    let fx := fun (v : Int) => s.answered 0 (BitVec.ofInt 64 v)
    let bad := fun (i : BitVec 64) => ({ s with status := s.status ||| 0x100 } : State).answered 0x12 i
    (exec .rdCdrfState s = .next (ans (s.cdrf.run.toNat + 2 * s.cdrf.prev.toNat)) ∧
      exec .rdCdrfIdx s = .next (ans s.cdrf.idx) ∧ exec .rdCdrfNrec s = .next (ans s.cdrf.nrec) ∧
      exec .rdCdrfSat s = .next (ans s.cdrf.sat) ∧ exec .rdCdrfSatFirst s = .next (ans s.cdrf.satFirst)) ∧
    (exec .rdCdrxState s =
        .next (ans (s.cdrx.run.toNat + 2 * s.cdrx.prev.toNat + 4 * s.cdrx.halt.toNat)) ∧
      exec .rdCdrxIdx s = .next (ans s.cdrx.idx) ∧ exec .rdCdrxNrec s = .next (ans s.cdrx.nrec) ∧
      exec .rdCdrxSat s = .next (ans s.cdrx.sat) ∧ exec .rdCdrxSatFirst s = .next (ans s.cdrx.satFirst) ∧
      exec .rdCdrxMaxw s = .next (ans s.cdrx.maxw) ∧ exec .rdCdrxFaultIdx s = .next (ans s.cdrx.faultIdx) ∧
      exec .rdCdrxFaultStep s = .next (ans s.cdrx.faultStep.toNat)) ∧
    (exec .rdXAcc s = .next (fx s.cdrx.acc) ∧ exec .rdXLast s = .next (fx s.cdrx.last) ∧
      exec .rdXPd s = .next (fx s.cdrx.pd) ∧ exec .rdXPdf s = .next (fx s.cdrx.pdf) ∧
      exec .rdXInteg s = .next (fx s.cdrx.integ) ∧ exec .rdXFtw s = .next (fx s.cdrx.ftw)) ∧
    (∀ k, s.cdrx.latch = some k →
      exec .rdXAlpha s = .next (fx k.alpha) ∧ exec .rdXKi s = .next (fx k.ki) ∧ exec .rdXKp s = .next (fx k.kp) ∧
      exec .rdXImax s = .next (fx k.imax) ∧ exec .rdXAccsz s = .next (fx k.accsz) ∧
      exec .rdXFtw0 s = .next (fx k.ftw0)) ∧
    (s.cdrx.latch = none →
      exec .rdXAlpha s = .next (bad 0x40) ∧ exec .rdXKi s = .next (bad 0x41) ∧ exec .rdXKp s = .next (bad 0x42) ∧
      exec .rdXImax s = .next (bad 0x43) ∧ exec .rdXAccsz s = .next (bad 0x44) ∧ exec .rdXFtw0 s = .next (bad 0x45)) ∧
    (∀ v : Int, -(2 ^ 63) ≤ v → v < 2 ^ 63 → (BitVec.ofInt 64 v).toInt = v)

/-- R47: `RD` changes nothing but the response, and `STATUS.BADCFG` when the register is unwritten, and it is idempotent:
the same `RD` again gives the same state and response. -/
def Obligations.ReadsAreIdempotent : Prop :=
  ∀ s i, (∃ r ∈ readLowRows ++ readHighRows, opOf (encode i) = r.op) → ∃ t,
    exec i s = .next t ∧ exec i t = .next t ∧
    t = { s with status := t.status, response := t.response } ∧
    (t.status = s.status ∨ t.status = s.status ||| 0x100)

/-- R13, R53, R241: what a configuration register other than `CHAIN` holds does not reach a command that is no START, RD,
WR or RESET: with another configuration of the same `CHAIN` it does the same. -/
def Obligations.ConfigurationIsLatched : Prop :=
  ∀ s t i c, (i ∈ [Instr.nop, .encSync, .encFlush, .demStart, .scnEnd] ∨ (∃ m, i = .clrstat m) ∨ (∃ v tb, i = .encStart v tb) ∨
      (∃ b, i = .encByte b ∨ i = .cdrfAmp b ∨ i = .cdrxAmp b) ∨ (∃ n, i = .encPre n) ∨
      (∃ b, i = .encBit b ∨ i = .encRaw b ∨ i = .demLevel b ∨ i = .scnBit b ∨ i = .cdrfSample b ∨ i = .cdrxSample b)) →
    c.chain = s.cfg.chain → exec i s = .next t → exec i { s with cfg := c } = .next { t with cfg := c }

/-! ### The whole machine -/

/-- R18: "a set flag never changes what a later command does": from a state that differs in `STATUS` only, every
command but RD.STATUS does the same and answers the same, up to `STATUS`. -/
def Obligations.StatusSteersNothing : Prop :=
  ∀ i s t v, i ≠ .rdStatus → exec i s = .next t → ∃ w, exec i { s with status := v } = .next { t with status := w }

/-- R18: a flag stays set until CLRSTAT or reset: every other command leaves every set bit of `STATUS` set. -/
def Obligations.StatusFlagsAreSticky : Prop :=
  ∀ i s t n, (∀ m, i ≠ .clrstat m) → i ≠ .reset → exec i s = .next t →
    s.status.getLsbD n = true → t.status.getLsbD n = true

/-- R5, R50: a command only appends to the ports: what a port has emitted stays, in order. That RESET is among these
commands is the model's choice (log entry 7): R186 says of it "the port logs (which are not state) are not touched",
while R5 counts a log "since reset". -/
def Obligations.PortsOnlyGrow : Prop :=
  ∀ i s t, exec i s = .next t →
    s.ports.code <+: t.ports.code ∧ s.ports.level <+: t.ports.level ∧ s.ports.amp <+: t.ports.amp ∧
    s.ports.recF <+: t.ports.recF ∧ s.ports.recX <+: t.ports.recX ∧ s.ports.demod <+: t.ports.demod ∧
    s.ports.byte <+: t.ports.byte

/-- R13, R19 to R24: which commands can change which part of the state, whatever is chained; RESET changes all. The
clauses on `inbox` and `response` are about fields of the model's own (log entries 5 and 6). -/
def Obligations.CommandsStayInTheirUnits : Prop :=
  ∀ i s t, exec i s = .next t → i ≠ .reset →
    let op := (opOf (encode i)).toNat
    t.inbox = s.inbox ∧ t.response ≠ none ∧
    (¬(0x40 ≤ op ∧ op ≤ 0x48) → t.cfg = s.cfg) ∧ (¬(0x10 ≤ op ∧ op ≤ 0x16) → t.enc = s.enc) ∧
    (¬(0x30 ≤ op ∧ op ≤ 0x32) → t.cdrf = s.cdrf) ∧ (¬(0x38 ≤ op ∧ op ≤ 0x3A) → t.cdrx = s.cdrx) ∧
    (¬(0x20 ≤ op ∧ op ≤ 0x21) ∧ (s.cfg.chain.extractLsb' 0 2 = 0 ∨ ¬(0x30 ≤ op ∧ op ≤ 0x3A)) → t.dem = s.dem) ∧
    (¬(0x28 ≤ op ∧ op ≤ 0x2A) ∧ (s.cfg.chain.getLsbD 2 = false ∨ ¬(0x20 ≤ op ∧ op ≤ 0x3A)) → t.scn = s.scn)

/-- R25, R245: from every good state one step answers a next state, and that state is good: no fault and no refusal is
ever met, whatever word the host issues. -/
def Obligations.GoodStatesStepToGoodStates : Prop := ∀ s, Machine.Inv s → ∃ t, step s = .next t ∧ Machine.Inv t

/-- The state after reset is good. -/
def Obligations.ResetIsGood : Prop := Machine.Inv State.reset

/-- R3, R245: whatever words the host issues, from a good state every run of any length is safe. -/
def Obligations.EveryRunIsSafe : Prop := ∀ k s cws, Machine.Inv s → SafeRun k { s with inbox := cws }
end

