-- ==== Sys2Proof/Laws/Decode.lean ====
section
/-! SUPPORT. Words, their two fields, and what it takes to select a row of the opcode table. -/

namespace Sys2Proof

/-- The bits of a word: the operand below bit 64, the opcode from there (R55). -/
theorem mkWord_getLsbD (op : Byte) (arg : Arg) (i : Nat) :
    (mkWord op arg).getLsbD i = if i < 64 then arg.getLsbD i else op.getLsbD (i - 64) :=
  (BitVec.getLsbD_append (x := op) (y := arg) (i := i)).trans (by simp)

@[simp] theorem opOf_mkWord (op : Byte) (arg : Arg) : opOf (mkWord op arg) = op := by
  apply BitVec.eq_of_getLsbD_eq; intro i hi
  simp [opOf, mkWord_getLsbD, hi]

@[simp] theorem argOf_mkWord (op : Byte) (arg : Arg) : argOf (mkWord op arg) = arg := by
  apply BitVec.eq_of_getLsbD_eq; intro i hi
  simp [argOf, mkWord_getLsbD, hi]

/-- A word is its opcode and its operand. -/
theorem mkWord_fields (cw : CmdWord) : mkWord (opOf cw) (argOf cw) = cw := by
  apply BitVec.eq_of_getLsbD_eq; intro i hi
  rw [mkWord_getLsbD]
  by_cases h : i < 64
  · simp [argOf, h]
  · have h8 : i - 64 < 8 := by omega
    have h64 : 64 + (i - 64) = i := by omega
    simp [opOf, h, h8, h64]

/-- Two words are equal when both fields are. -/
theorem mkWord_inj (o p : Byte) (a b : Arg) : mkWord o a = mkWord p b ↔ o = p ∧ a = b :=
  ⟨fun h => ⟨by simpa using congrArg opOf h, by simpa using congrArg argOf h⟩, by rintro ⟨rfl, rfl⟩; rfl⟩

theorem mkWord_and (o p : Byte) (a b : Arg) : mkWord o a &&& mkWord p b = mkWord (o &&& p) (a &&& b) := by
  apply BitVec.eq_of_getLsbD_eq; intro i hi
  by_cases h : i < 64 <;> simp [mkWord_getLsbD, BitVec.getLsbD_and, h]

/-- A word selects a row exactly when it has the row's opcode and its unused operand bits are 0 (R56). -/
theorem selectedBy_mkWord (r : OpRow) (op : Byte) (arg : Arg) :
    r.selectedBy (mkWord op arg) = true ↔ op = r.op ∧ arg &&& r.format.unused = 0 := by
  have h : op &&& 255#8 = op := BitVec.and_allOnes (x := op)
  simp [OpRow.selectedBy, OpRow.mask, OpRow.pattern, mkWord_and, mkWord_inj, h]

theorem selectedBy_iff (r : OpRow) (cw : CmdWord) :
    r.selectedBy cw = true ↔ opOf cw = r.op ∧ argOf cw &&& r.format.unused = 0 := by
  rw [← selectedBy_mkWord, mkWord_fields]

/-- No two rows of the table have the same opcode. -/
theorem opcodeTable_ops_nodup : (opcodeTable.map (fun r => r.op)).Nodup := by decide +kernel

/-- The table has 80 rows (R60). -/
theorem opcodeTable_length : opcodeTable.length = 80 := rfl

/-- A word that selects a row of the table decodes to what the row builds. -/
theorem decode_of_row (r : OpRow) (hr : r ∈ opcodeTable) (cw : CmdWord) (hs : r.selectedBy cw = true) :
    decode cw = .ok (r.build (argOf cw)) := by
  have hsome : ∃ q, opcodeTable.find? (fun q => q.selectedBy cw) = some q := by
    cases h : opcodeTable.find? (fun q => q.selectedBy cw) with
    | some q => exact ⟨q, rfl⟩
    | none => exact absurd hs (by simpa using List.find?_eq_none.mp h r hr)
  obtain ⟨q, hq⟩ := hsome
  have hq1 := List.mem_of_find?_eq_some hq
  have hq2 := List.find?_some hq
  have hop : q.op = r.op := by
    rw [← ((selectedBy_iff q cw).mp hq2).1, ((selectedBy_iff r cw).mp hs).1]
  have hqr : q = r := List.inj_on_of_nodup_map opcodeTable_ops_nodup hq1 hr hop
  simp [decode, hq, hqr]

/-! ### The operands the encoder writes use no bit their format does not use -/

/-- An `n`-bit field in the low bits of an operand leaves the bits from `n` on at 0. -/
theorem setWidth_and_high (n : Nat) (v : BitVec n) : v.setWidth 64 &&& (BitVec.allOnes 64 <<< n) = 0 := by
  apply BitVec.eq_of_getLsbD_eq; intro i hi
  by_cases h : i < n
  · simp [h]
  · simp [BitVec.getLsbD_of_ge v i (by omega)]

theorem argBit_unused (b : Bit) : argBit b &&& Format.B1.unused = 0 := by cases b <;> decide

theorem argScheme_unused (v : Scheme) : argScheme v &&& Format.S2.unused = 0 := by cases v <;> decide

theorem argRat_unused (num den : BitVec 32) : argRat num den &&& Format.RAT.unused = 0 := by
  simp [Format.unused]

/-- The bits of an ENC.START operand: the scheme in bits 1..0, `tb` in bits 47..16, 0 elsewhere (R58). -/
theorem argStart_getLsbD (v : Scheme) (tb : BitVec 32) (i : Nat) :
    (argStart v tb).getLsbD i =
      if i < 2 then v.code.getLsbD i else if i < 16 then false else tb.getLsbD (i - 16) := by
  have e : (argStart v tb).getLsbD i =
      if i < 2 then v.code.getLsbD i else ((0 : BitVec 16) ++ tb ++ (0 : BitVec 14)).getLsbD (i - 2) :=
    (BitVec.getLsbD_append (y := v.code)).trans (by simp)
  rw [e]
  by_cases h : i < 2
  · simp [h]
  · have h2 : i - 2 < 14 ↔ i < 16 := by omega
    have h3 : i - 2 - 14 = i - 16 := by omega
    simp only [h, if_false, BitVec.getLsbD_append, h2, h3]
    by_cases h4 : i < 16
    · simp [h4]
    · by_cases h5 : i - 16 < 32
      · simp [h4, h5]
      · simp [h4, h5, BitVec.getLsbD_of_ge tb (i - 16) (by omega)]

theorem argStart_unused (v : Scheme) (tb : BitVec 32) : argStart v tb &&& Format.ES.unused = 0 := by
  have hm : ∀ i : Fin 64, Format.ES.unused.getLsbD i = (decide (2 ≤ i.val ∧ i.val < 16) || decide (48 ≤ i.val)) := by
    decide
  apply BitVec.eq_of_getLsbD_eq; intro i hi
  have hb := hm ⟨i, hi⟩
  simp only at hb
  simp only [BitVec.getLsbD_and, hb, argStart_getLsbD]
  by_cases h1 : i < 2
  · have : ¬ 2 ≤ i := by omega
    have : ¬ 48 ≤ i := by omega
    simp [*]
  · by_cases h2 : i < 16
    · simp [h1, h2]
    · by_cases h3 : i < 48
      · have : ¬ 48 ≤ i := by omega
        simp [h1, h2, this]
      · simp [h1, h2, BitVec.getLsbD_of_ge tb (i - 16) (by omega)]

/-! ### The row at a place of the table, and the fields of the operands the encoder writes -/

/-- A word with the opcode of the table's `n`th row and an operand that respects the row's format decodes to what the row
builds. -/
theorem decode_at (n : Nat) (r : OpRow) (hr : opcodeTable[n]? = some r) (arg : Arg) (h : arg &&& r.format.unused = 0) :
    decode (mkWord r.op arg) = .ok (r.build arg) := by
  have := decode_of_row r (List.mem_of_getElem? hr) (mkWord r.op arg) ((selectedBy_mkWord r _ arg).mpr ⟨rfl, h⟩)
  simpa using this

/-- A field in the low bits of an operand is read back. -/
theorem extract_setWidth (n : Nat) (hn : n ≤ 64) (v : BitVec n) : (v.setWidth 64).extractLsb' 0 n = v := by
  apply BitVec.eq_of_getLsbD_eq; intro i hi
  have : i < 64 := by omega
  simp [hi, this]

theorem fieldBit_argBit (b : Bit) : fieldBit (argBit b) = b := by cases b <;> decide

theorem fieldScheme_argScheme (v : Scheme) : fieldScheme (argScheme v) = v := by cases v <;> decide

theorem fieldScheme_argStart (v : Scheme) (tb : BitVec 32) : fieldScheme (argStart v tb) = v := by
  have h : (argStart v tb).extractLsb' 0 2 = v.code := by
    apply BitVec.eq_of_getLsbD_eq; intro i hi
    simp [argStart_getLsbD, hi]
  unfold fieldScheme; rw [h]; cases v <;> decide

theorem fieldTb_argStart (v : Scheme) (tb : BitVec 32) : fieldTb (argStart v tb) = tb := by
  apply BitVec.eq_of_getLsbD_eq; intro i hi
  have h : ¬(16 + i < 2) := by omega
  simp [fieldTb, argStart_getLsbD, hi, h]

theorem fieldNum_argRat (num den : BitVec 32) : fieldNum (argRat num den) = num := by
  apply BitVec.eq_of_getLsbD_eq; intro i hi
  have e : (argRat num den).getLsbD (32 + i) = _ := BitVec.getLsbD_append (x := num) (y := den)
  simp [fieldNum, e, hi]

theorem fieldLow32_argRat (num den : BitVec 32) : fieldLow32 (argRat num den) = den := by
  apply BitVec.eq_of_getLsbD_eq; intro i hi
  have e : (argRat num den).getLsbD i = _ := BitVec.getLsbD_append (x := num) (y := den)
  simp [fieldLow32, e, hi]

end Sys2Proof
end

