-- ==== Sys2Proof/Laws/State.lean ====
section
/-! SUPPORT. What each update of State leaves in each field, true by rfl, and what two updates of one field leave. -/

namespace Sys2Proof.Machine

variable (s : State)

/-! ### setCfg -/

@[simp] theorem State.setCfg_cfg (v : CfgRegs) : (s.setCfg v).cfg = v := rfl
@[simp] theorem State.setCfg_status (v : CfgRegs) : (s.setCfg v).status = s.status := rfl
@[simp] theorem State.setCfg_enc (v : CfgRegs) : (s.setCfg v).enc = s.enc := rfl
@[simp] theorem State.setCfg_dem (v : CfgRegs) : (s.setCfg v).dem = s.dem := rfl
@[simp] theorem State.setCfg_scn (v : CfgRegs) : (s.setCfg v).scn = s.scn := rfl
@[simp] theorem State.setCfg_cdrf (v : CfgRegs) : (s.setCfg v).cdrf = s.cdrf := rfl
@[simp] theorem State.setCfg_cdrx (v : CfgRegs) : (s.setCfg v).cdrx = s.cdrx := rfl
@[simp] theorem State.setCfg_ports (v : CfgRegs) : (s.setCfg v).ports = s.ports := rfl
@[simp] theorem State.setCfg_response (v : CfgRegs) : (s.setCfg v).response = s.response := rfl
@[simp] theorem State.setCfg_inbox (v : CfgRegs) : (s.setCfg v).inbox = s.inbox := rfl
@[simp] theorem State.setCfg_setCfg (v w : CfgRegs) : (s.setCfg v).setCfg w = s.setCfg w := rfl
@[simp] theorem State.setCfg_self : s.setCfg s.cfg = s := rfl

/-! ### setStatus -/

@[simp] theorem State.setStatus_cfg (v : BitVec 64) : (s.setStatus v).cfg = s.cfg := rfl
@[simp] theorem State.setStatus_status (v : BitVec 64) : (s.setStatus v).status = v := rfl
@[simp] theorem State.setStatus_enc (v : BitVec 64) : (s.setStatus v).enc = s.enc := rfl
@[simp] theorem State.setStatus_dem (v : BitVec 64) : (s.setStatus v).dem = s.dem := rfl
@[simp] theorem State.setStatus_scn (v : BitVec 64) : (s.setStatus v).scn = s.scn := rfl
@[simp] theorem State.setStatus_cdrf (v : BitVec 64) : (s.setStatus v).cdrf = s.cdrf := rfl
@[simp] theorem State.setStatus_cdrx (v : BitVec 64) : (s.setStatus v).cdrx = s.cdrx := rfl
@[simp] theorem State.setStatus_ports (v : BitVec 64) : (s.setStatus v).ports = s.ports := rfl
@[simp] theorem State.setStatus_response (v : BitVec 64) : (s.setStatus v).response = s.response := rfl
@[simp] theorem State.setStatus_inbox (v : BitVec 64) : (s.setStatus v).inbox = s.inbox := rfl
@[simp] theorem State.setStatus_setStatus (v w : BitVec 64) : (s.setStatus v).setStatus w = s.setStatus w := rfl
@[simp] theorem State.setStatus_self : s.setStatus s.status = s := rfl

/-! ### setEnc -/

@[simp] theorem State.setEnc_cfg (v : EncUnit) : (s.setEnc v).cfg = s.cfg := rfl
@[simp] theorem State.setEnc_status (v : EncUnit) : (s.setEnc v).status = s.status := rfl
@[simp] theorem State.setEnc_enc (v : EncUnit) : (s.setEnc v).enc = v := rfl
@[simp] theorem State.setEnc_dem (v : EncUnit) : (s.setEnc v).dem = s.dem := rfl
@[simp] theorem State.setEnc_scn (v : EncUnit) : (s.setEnc v).scn = s.scn := rfl
@[simp] theorem State.setEnc_cdrf (v : EncUnit) : (s.setEnc v).cdrf = s.cdrf := rfl
@[simp] theorem State.setEnc_cdrx (v : EncUnit) : (s.setEnc v).cdrx = s.cdrx := rfl
@[simp] theorem State.setEnc_ports (v : EncUnit) : (s.setEnc v).ports = s.ports := rfl
@[simp] theorem State.setEnc_response (v : EncUnit) : (s.setEnc v).response = s.response := rfl
@[simp] theorem State.setEnc_inbox (v : EncUnit) : (s.setEnc v).inbox = s.inbox := rfl
@[simp] theorem State.setEnc_setEnc (v w : EncUnit) : (s.setEnc v).setEnc w = s.setEnc w := rfl
@[simp] theorem State.setEnc_self : s.setEnc s.enc = s := rfl

/-! ### setDem -/

@[simp] theorem State.setDem_cfg (v : DemUnit) : (s.setDem v).cfg = s.cfg := rfl
@[simp] theorem State.setDem_status (v : DemUnit) : (s.setDem v).status = s.status := rfl
@[simp] theorem State.setDem_enc (v : DemUnit) : (s.setDem v).enc = s.enc := rfl
@[simp] theorem State.setDem_dem (v : DemUnit) : (s.setDem v).dem = v := rfl
@[simp] theorem State.setDem_scn (v : DemUnit) : (s.setDem v).scn = s.scn := rfl
@[simp] theorem State.setDem_cdrf (v : DemUnit) : (s.setDem v).cdrf = s.cdrf := rfl
@[simp] theorem State.setDem_cdrx (v : DemUnit) : (s.setDem v).cdrx = s.cdrx := rfl
@[simp] theorem State.setDem_ports (v : DemUnit) : (s.setDem v).ports = s.ports := rfl
@[simp] theorem State.setDem_response (v : DemUnit) : (s.setDem v).response = s.response := rfl
@[simp] theorem State.setDem_inbox (v : DemUnit) : (s.setDem v).inbox = s.inbox := rfl
@[simp] theorem State.setDem_setDem (v w : DemUnit) : (s.setDem v).setDem w = s.setDem w := rfl
@[simp] theorem State.setDem_self : s.setDem s.dem = s := rfl

/-! ### setScn -/

@[simp] theorem State.setScn_cfg (v : ScnUnit) : (s.setScn v).cfg = s.cfg := rfl
@[simp] theorem State.setScn_status (v : ScnUnit) : (s.setScn v).status = s.status := rfl
@[simp] theorem State.setScn_enc (v : ScnUnit) : (s.setScn v).enc = s.enc := rfl
@[simp] theorem State.setScn_dem (v : ScnUnit) : (s.setScn v).dem = s.dem := rfl
@[simp] theorem State.setScn_scn (v : ScnUnit) : (s.setScn v).scn = v := rfl
@[simp] theorem State.setScn_cdrf (v : ScnUnit) : (s.setScn v).cdrf = s.cdrf := rfl
@[simp] theorem State.setScn_cdrx (v : ScnUnit) : (s.setScn v).cdrx = s.cdrx := rfl
@[simp] theorem State.setScn_ports (v : ScnUnit) : (s.setScn v).ports = s.ports := rfl
@[simp] theorem State.setScn_response (v : ScnUnit) : (s.setScn v).response = s.response := rfl
@[simp] theorem State.setScn_inbox (v : ScnUnit) : (s.setScn v).inbox = s.inbox := rfl
@[simp] theorem State.setScn_setScn (v w : ScnUnit) : (s.setScn v).setScn w = s.setScn w := rfl
@[simp] theorem State.setScn_self : s.setScn s.scn = s := rfl

/-! ### setCdrf -/

@[simp] theorem State.setCdrf_cfg (v : CdrfUnit) : (s.setCdrf v).cfg = s.cfg := rfl
@[simp] theorem State.setCdrf_status (v : CdrfUnit) : (s.setCdrf v).status = s.status := rfl
@[simp] theorem State.setCdrf_enc (v : CdrfUnit) : (s.setCdrf v).enc = s.enc := rfl
@[simp] theorem State.setCdrf_dem (v : CdrfUnit) : (s.setCdrf v).dem = s.dem := rfl
@[simp] theorem State.setCdrf_scn (v : CdrfUnit) : (s.setCdrf v).scn = s.scn := rfl
@[simp] theorem State.setCdrf_cdrf (v : CdrfUnit) : (s.setCdrf v).cdrf = v := rfl
@[simp] theorem State.setCdrf_cdrx (v : CdrfUnit) : (s.setCdrf v).cdrx = s.cdrx := rfl
@[simp] theorem State.setCdrf_ports (v : CdrfUnit) : (s.setCdrf v).ports = s.ports := rfl
@[simp] theorem State.setCdrf_response (v : CdrfUnit) : (s.setCdrf v).response = s.response := rfl
@[simp] theorem State.setCdrf_inbox (v : CdrfUnit) : (s.setCdrf v).inbox = s.inbox := rfl
@[simp] theorem State.setCdrf_setCdrf (v w : CdrfUnit) : (s.setCdrf v).setCdrf w = s.setCdrf w := rfl
@[simp] theorem State.setCdrf_self : s.setCdrf s.cdrf = s := rfl

/-! ### setCdrx -/

@[simp] theorem State.setCdrx_cfg (v : CdrxUnit) : (s.setCdrx v).cfg = s.cfg := rfl
@[simp] theorem State.setCdrx_status (v : CdrxUnit) : (s.setCdrx v).status = s.status := rfl
@[simp] theorem State.setCdrx_enc (v : CdrxUnit) : (s.setCdrx v).enc = s.enc := rfl
@[simp] theorem State.setCdrx_dem (v : CdrxUnit) : (s.setCdrx v).dem = s.dem := rfl
@[simp] theorem State.setCdrx_scn (v : CdrxUnit) : (s.setCdrx v).scn = s.scn := rfl
@[simp] theorem State.setCdrx_cdrf (v : CdrxUnit) : (s.setCdrx v).cdrf = s.cdrf := rfl
@[simp] theorem State.setCdrx_cdrx (v : CdrxUnit) : (s.setCdrx v).cdrx = v := rfl
@[simp] theorem State.setCdrx_ports (v : CdrxUnit) : (s.setCdrx v).ports = s.ports := rfl
@[simp] theorem State.setCdrx_response (v : CdrxUnit) : (s.setCdrx v).response = s.response := rfl
@[simp] theorem State.setCdrx_inbox (v : CdrxUnit) : (s.setCdrx v).inbox = s.inbox := rfl
@[simp] theorem State.setCdrx_setCdrx (v w : CdrxUnit) : (s.setCdrx v).setCdrx w = s.setCdrx w := rfl
@[simp] theorem State.setCdrx_self : s.setCdrx s.cdrx = s := rfl

/-! ### setPorts -/

@[simp] theorem State.setPorts_cfg (v : Ports) : (s.setPorts v).cfg = s.cfg := rfl
@[simp] theorem State.setPorts_status (v : Ports) : (s.setPorts v).status = s.status := rfl
@[simp] theorem State.setPorts_enc (v : Ports) : (s.setPorts v).enc = s.enc := rfl
@[simp] theorem State.setPorts_dem (v : Ports) : (s.setPorts v).dem = s.dem := rfl
@[simp] theorem State.setPorts_scn (v : Ports) : (s.setPorts v).scn = s.scn := rfl
@[simp] theorem State.setPorts_cdrf (v : Ports) : (s.setPorts v).cdrf = s.cdrf := rfl
@[simp] theorem State.setPorts_cdrx (v : Ports) : (s.setPorts v).cdrx = s.cdrx := rfl
@[simp] theorem State.setPorts_ports (v : Ports) : (s.setPorts v).ports = v := rfl
@[simp] theorem State.setPorts_response (v : Ports) : (s.setPorts v).response = s.response := rfl
@[simp] theorem State.setPorts_inbox (v : Ports) : (s.setPorts v).inbox = s.inbox := rfl
@[simp] theorem State.setPorts_setPorts (v w : Ports) : (s.setPorts v).setPorts w = s.setPorts w := rfl
@[simp] theorem State.setPorts_self : s.setPorts s.ports = s := rfl

/-! ### setResponse -/

@[simp] theorem State.setResponse_cfg (v : Option Response) : (s.setResponse v).cfg = s.cfg := rfl
@[simp] theorem State.setResponse_status (v : Option Response) : (s.setResponse v).status = s.status := rfl
@[simp] theorem State.setResponse_enc (v : Option Response) : (s.setResponse v).enc = s.enc := rfl
@[simp] theorem State.setResponse_dem (v : Option Response) : (s.setResponse v).dem = s.dem := rfl
@[simp] theorem State.setResponse_scn (v : Option Response) : (s.setResponse v).scn = s.scn := rfl
@[simp] theorem State.setResponse_cdrf (v : Option Response) : (s.setResponse v).cdrf = s.cdrf := rfl
@[simp] theorem State.setResponse_cdrx (v : Option Response) : (s.setResponse v).cdrx = s.cdrx := rfl
@[simp] theorem State.setResponse_ports (v : Option Response) : (s.setResponse v).ports = s.ports := rfl
@[simp] theorem State.setResponse_response (v : Option Response) : (s.setResponse v).response = v := rfl
@[simp] theorem State.setResponse_inbox (v : Option Response) : (s.setResponse v).inbox = s.inbox := rfl
@[simp] theorem State.setResponse_setResponse (v w : Option Response) : (s.setResponse v).setResponse w = s.setResponse w := rfl
@[simp] theorem State.setResponse_self : s.setResponse s.response = s := rfl

/-! ### setInbox -/

@[simp] theorem State.setInbox_cfg (v : List CmdWord) : (s.setInbox v).cfg = s.cfg := rfl
@[simp] theorem State.setInbox_status (v : List CmdWord) : (s.setInbox v).status = s.status := rfl
@[simp] theorem State.setInbox_enc (v : List CmdWord) : (s.setInbox v).enc = s.enc := rfl
@[simp] theorem State.setInbox_dem (v : List CmdWord) : (s.setInbox v).dem = s.dem := rfl
@[simp] theorem State.setInbox_scn (v : List CmdWord) : (s.setInbox v).scn = s.scn := rfl
@[simp] theorem State.setInbox_cdrf (v : List CmdWord) : (s.setInbox v).cdrf = s.cdrf := rfl
@[simp] theorem State.setInbox_cdrx (v : List CmdWord) : (s.setInbox v).cdrx = s.cdrx := rfl
@[simp] theorem State.setInbox_ports (v : List CmdWord) : (s.setInbox v).ports = s.ports := rfl
@[simp] theorem State.setInbox_response (v : List CmdWord) : (s.setInbox v).response = s.response := rfl
@[simp] theorem State.setInbox_inbox (v : List CmdWord) : (s.setInbox v).inbox = v := rfl
@[simp] theorem State.setInbox_setInbox (v w : List CmdWord) : (s.setInbox v).setInbox w = s.setInbox w := rfl
@[simp] theorem State.setInbox_self : s.setInbox s.inbox = s := rfl

end Sys2Proof.Machine
end

