-- ==== Sys2Proof/Laws/Ops.lean ====
section
/-! SUPPORT. What each shared operation of Machine/Ops.lean leaves, once: flags, events, responses, emission, register
access, accepting a word. -/

namespace Sys2Proof.Machine

variable (s : State)

/-! ### Flags -/

@[simp] theorem setFlag_status (f : Flag) : (setFlag f s).status = withFlag f s.status := rfl
@[simp] theorem setFlag_cfg (f : Flag) : (setFlag f s).cfg = s.cfg := rfl
@[simp] theorem setFlag_enc (f : Flag) : (setFlag f s).enc = s.enc := rfl
@[simp] theorem setFlag_dem (f : Flag) : (setFlag f s).dem = s.dem := rfl
@[simp] theorem setFlag_scn (f : Flag) : (setFlag f s).scn = s.scn := rfl
@[simp] theorem setFlag_cdrf (f : Flag) : (setFlag f s).cdrf = s.cdrf := rfl
@[simp] theorem setFlag_cdrx (f : Flag) : (setFlag f s).cdrx = s.cdrx := rfl
@[simp] theorem setFlag_ports (f : Flag) : (setFlag f s).ports = s.ports := rfl
@[simp] theorem setFlag_response (f : Flag) : (setFlag f s).response = s.response := rfl
@[simp] theorem setFlag_inbox (f : Flag) : (setFlag f s).inbox = s.inbox := rfl

/-- Setting a flag sets its bit and leaves every other bit as it was. -/
theorem withFlag_getLsbD (f : Flag) (v : BitVec 64) (i : Nat) :
    (withFlag f v).getLsbD i = (v.getLsbD i || decide (i = f.bit)) := by
  have hf : f.bit < 64 := by cases f <;> decide
  by_cases h : i = f.bit
  · subst h; simp [withFlag, hf]
  · have h' : f.bit ≠ i := fun e => h e.symm
    simp [withFlag, BitVec.getLsbD_twoPow, h, h']

/-- The flags stand below bit 11, so the reserved bits of `STATUS` stay 0. -/
theorem withFlag_lt (f : Flag) (v : BitVec 64) (h : v.toNat < 2 ^ 11) : (withFlag f v).toNat < 2 ^ 11 := by
  have hf : (BitVec.twoPow 64 f.bit).toNat < 2 ^ 11 := by cases f <;> decide
  simpa [withFlag, BitVec.toNat_or] using Nat.or_lt_two_pow h hf

/-- Clearing flags never sets one. -/
theorem clearFlags_lt (mask : BitVec 16) (v : BitVec 64) (h : v.toNat < 2 ^ 11) :
    (clearFlags mask v).toNat < 2 ^ 11 := by
  have : (clearFlags mask v).toNat ≤ v.toNat := by
    simp only [clearFlags, BitVec.toNat_and]; exact Nat.and_le_left
  omega

/-! ### Events and responses -/

/-- Everything a raised event does: its flag and its response. -/
theorem raise_eq (e : Event) (info : Nat) :
    raise e info s =
      { s with status := withFlag e.flag s.status, response := some ⟨e.code, BitVec.ofNat 64 info⟩ } := rfl

@[simp] theorem raise_status (e : Event) (n : Nat) : (raise e n s).status = withFlag e.flag s.status := rfl
@[simp] theorem raise_response (e : Event) (n : Nat) : (raise e n s).response = some (eventResponse e n) := rfl
@[simp] theorem raise_cfg (e : Event) (n : Nat) : (raise e n s).cfg = s.cfg := rfl
@[simp] theorem raise_enc (e : Event) (n : Nat) : (raise e n s).enc = s.enc := rfl
@[simp] theorem raise_dem (e : Event) (n : Nat) : (raise e n s).dem = s.dem := rfl
@[simp] theorem raise_scn (e : Event) (n : Nat) : (raise e n s).scn = s.scn := rfl
@[simp] theorem raise_cdrf (e : Event) (n : Nat) : (raise e n s).cdrf = s.cdrf := rfl
@[simp] theorem raise_cdrx (e : Event) (n : Nat) : (raise e n s).cdrx = s.cdrx := rfl
@[simp] theorem raise_ports (e : Event) (n : Nat) : (raise e n s).ports = s.ports := rfl
@[simp] theorem raise_inbox (e : Event) (n : Nat) : (raise e n s).inbox = s.inbox := rfl

/-- Everything a noted event does: its flag now, its response pending unless one is pending already. -/
theorem note_eq (e : Event) (info : Nat) (p : Option Response) :
    note e info p s = (setFlag e.flag s, some (p.getD ⟨e.code, BitVec.ofNat 64 info⟩)) := rfl

/-- Everything responding does: the pending response if there is one, else the command's own. -/
theorem respond_eq (p : Option Response) (r : Response) :
    respond p r s = { s with response := some (p.getD r) } := rfl

/-- A command that ends normally answers a next state with response `(OK, 0)`. -/
@[simp] theorem done_eq : done s = .next { s with response := some ⟨0, 0⟩ } := rfl

/-- A command that ends in an event answers a next state. -/
@[simp] theorem raised_eq (e : Event) (info : Nat) : raised e info s = .next (raise e info s) := rfl

@[simp] theorem finish_running (p : Option Response) :
    finish p (.running s) = .next { s with response := some (p.getD okResponse) } := rfl

@[simp] theorem finish_ended (p : Option Response) : finish p (.ended s) = .next s := rfl

/-- Ending a command always answers a next state. -/
theorem finish_next (p : Option Response) (g : Progress) : ∃ t, finish p g = .next t := by
  cases g <;> exact ⟨_, rfl⟩

/-! ### Emission -/

/-- Emitting a code bit appends it to CODE and does nothing else. -/
theorem emitCode_eq (c : Bit) :
    emitCode c s = { s with ports := { s.ports with code := s.ports.code ++ [c] } } := rfl

/-- Emitting a level appends it `tb` times to LEVEL and its amplitude as often to AMP. -/
theorem emitLevels_eq (tb : Nat) (lvl : Bit) :
    emitLevels tb lvl s =
      { s with ports := { s.ports with
          level := s.ports.level ++ List.replicate tb lvl
          amp := s.ports.amp ++ List.replicate tb (ampOf lvl) } } := rfl

theorem emitRecF_eq (b : Bit) :
    emitRecF b s = { s with ports := { s.ports with recF := s.ports.recF ++ [b] } } := rfl

theorem emitRecX_eq (b : Bit) :
    emitRecX b s = { s with ports := { s.ports with recX := s.ports.recX ++ [b] } } := rfl

theorem emitDemod_eq (c : Bit) :
    emitDemod c s = { s with ports := { s.ports with demod := s.ports.demod ++ [c] } } := rfl

theorem emitByte_eq (b : Byte) :
    emitByte b s = { s with ports := { s.ports with byte := s.ports.byte ++ [b] } } := rfl

/-! ### Register access -/

/-- Reading a written register answers its value and changes nothing but the response. -/
@[simp] theorem readReg_some (idx : Nat) (v : BitVec 64) :
    readReg idx (some v) s = .next { s with response := some ⟨0, v⟩ } := rfl

/-- Reading an unwritten register raises BadConfig with its index. -/
@[simp] theorem readReg_none (idx : Nat) : readReg idx none s = .next (raise .badConfig idx s) := rfl

/-- Writing stores a legal value, and refuses an illegal one with BadOperand. -/
theorem writeReg_eq (op : Nat) (legal : Bool) (cfg : CfgRegs) :
    writeReg op legal cfg s =
      if legal then .next { s with cfg := cfg, response := some ⟨0, 0⟩ } else .next (raise .badOperand op s) := rfl

/-- A loop's configuration is complete, with all three registers written, or misses one of them. -/
theorem loopConfig_cases (c : CfgRegs) :
    (∃ im az tb, c.integMax = some im ∧ c.accSize = some az ∧ c.tbC = some tb ∧ loopConfig c = .ok (im, az, tb)) ∨
    (c.integMax = none ∧ loopConfig c = .error 3) ∨
    (c.integMax ≠ none ∧ c.accSize = none ∧ loopConfig c = .error 4) ∨
    (c.integMax ≠ none ∧ c.accSize ≠ none ∧ c.tbC = none ∧ loopConfig c = .error 5) := by
  unfold loopConfig
  cases h1 : c.integMax <;> cases h2 : c.accSize <;> cases h3 : c.tbC <;> simp

/-! ### Accepting a word -/

/-- Accepting takes the first word the host has issued, if there is one. -/
theorem fetch_cons (cw : CmdWord) (rest : List CmdWord) (h : s.inbox = cw :: rest) :
    fetch s = some (cw, { s with inbox := rest }) := by simp [fetch, h, State.setInbox]

theorem fetch_nil (h : s.inbox = []) : fetch s = none := by simp [fetch, h]

end Sys2Proof.Machine
end

