-- ==== Sys2Proof/Laws/Enc.lean ====
section
/-! SUPPORT. What the shared steps of ENC leave: code bits through the modulator, data bits through the line encoder,
the flush. -/

namespace Sys2Proof.Machine

variable (s : State)

/-! ### Streams -/

theorem modulateFrom_append (tb : Nat) (lvl : Bit) (a b : List Bit) :
    modulateFrom tb lvl (a ++ b) = modulateFrom tb lvl a ++ modulateFrom tb (levelAfter lvl a) b := by
  induction a generalizing lvl with
  | nil => rfl
  | cons c cs ih => simp [modulateFrom, levelAfter, ih]

theorem levelAfter_append (lvl : Bit) (a b : List Bit) :
    levelAfter lvl (a ++ b) = levelAfter (levelAfter lvl a) b := by simp [levelAfter]

theorem length_modulateFrom (tb : Nat) (lvl : Bit) (cs : List Bit) :
    (modulateFrom tb lvl cs).length = tb * cs.length := by
  induction cs generalizing lvl with
  | nil => rfl
  | cons c cs ih => simp [modulateFrom, ih, Nat.mul_add, Nat.add_comm]

theorem leRun_append (v : Scheme) (st : LineState) (a b : List Bit) :
    leRun v st (a ++ b) = ((leRun v (leRun v st a).1 b).1, (leRun v st a).2 ++ (leRun v (leRun v st a).1 b).2) := by
  induction a generalizing st with
  | nil => rfl
  | cons d ds ih => simp [leRun, ih]

/-! ### Code bits through the modulator -/

/-- One code bit on CODE and through the modulator (spec/40_line_encoders.md R81, spec/41_nrzi.md R101). -/
theorem pushCode_eq (c : Bit) : pushCode c s = s.sentCode [c] := by
  simp [pushCode, modulateBit, emitCode, emitLevels, State.setPorts, State.setEnc, State.sentCode, modulateFrom,
    levelAfter]

@[simp] theorem sentCode_nil : s.sentCode [] = s := by simp [State.sentCode, modulateFrom, levelAfter]

/-- Code bits sent in two parts are code bits sent at once. -/
theorem sentCode_append (a b : List Bit) : (s.sentCode a).sentCode b = s.sentCode (a ++ b) := by
  simp [State.sentCode, modulateFrom_append, levelAfter_append, Nat.add_assoc]

/-- Everything `pushCodes` does. -/
theorem pushCodes_eq (cs : List Bit) : pushCodes cs s = s.sentCode cs := by
  induction cs generalizing s with
  | nil => simp [pushCodes]
  | cons c cs ih =>
    have : pushCodes (c :: cs) s = pushCodes cs (pushCode c s) := rfl
    rw [this, ih, pushCode_eq, sentCode_append]; rfl

/-! ### Data bits through the line encoder -/

/-- The unit's line encoder step is `LE_v` on the state the unit holds. -/
theorem lineStep_eq (u : EncUnit) (d : Bit) :
    lineStep u d =
      ({ u with mfmPrev := (leStep u.scheme ⟨u.mfmPrev, u.rllState⟩ d).1.prev
                rllState := (leStep u.scheme ⟨u.mfmPrev, u.rllState⟩ d).1.rll },
       (leStep u.scheme ⟨u.mfmPrev, u.rllState⟩ d).2) := by
  obtain ⟨_, scheme, _, _, _, _, _, _⟩ := u
  cases scheme <;> rfl

/-- Everything `ENCBIT` does. -/
theorem encodeBit_eq (d : Bit) : encodeBit d s = s.sentData [d] := by
  simp [encodeBit, lineStep_eq, pushCodes_eq, State.sentData, leRun, State.setEnc]

@[simp] theorem sentData_nil : s.sentData [] = s := by simp [State.sentData, leRun]

@[simp] theorem sentCode_enc_scheme (cs : List Bit) : (s.sentCode cs).enc.scheme = s.enc.scheme := rfl

/-- Data bits sent in two parts are data bits sent at once. -/
theorem sentData_append (a b : List Bit) : (s.sentData a).sentData b = s.sentData (a ++ b) := by
  simp [State.sentData, State.sentCode, leRun_append, modulateFrom_append, levelAfter_append, Nat.add_assoc]

/-- Data bits one after the other. -/
theorem foldl_encodeBit (ds : List Bit) : ds.foldl (fun t d => encodeBit d t) s = s.sentData ds := by
  induction ds generalizing s with
  | nil => simp
  | cons d ds ih => rw [List.foldl_cons, ih, encodeBit_eq, sentData_append]; rfl

/-- Everything encoding an octet does. -/
theorem encodeOctet_eq (b : Byte) : encodeOctet b s = s.sentData (octetBits b) := foldl_encodeBit s _

/-- Encoding an octet `n` times. -/
theorem encodeOctet_iterate (b : Byte) (n : Nat) :
    (encodeOctet b)^[n] s = s.sentData (bits (List.replicate n b)) := by
  induction n generalizing s with
  | zero => simp [bits]
  | succ n ih =>
    rw [Function.iterate_succ_apply, ih, encodeOctet_eq, sentData_append]
    simp [bits, List.replicate_succ]

/-! ### The flush -/

/-- The flush loop ends in the initial state and emits the code of R79, from every pending state. -/
theorem rllFlush_eq (st : RllState) : rllFlush st = (.idle, flushCode st) := by cases st <;> rfl

/-- Everything `FLUSH()` does. -/
theorem flushLine_eq : flushLine s = s.flushed := by
  cases h : s.enc.scheme <;>
    simp [flushLine, lineFlush, h, pushCodes_eq, State.flushed, rllFlush_eq, State.setEnc]

/-- The guard of the ENC data commands. -/
theorem encCommand_eq (f : State → State) :
    encCommand f s = if s.enc.run then .next ((f s).answered 0 0) else .next (raise .notRunning 0 s) := rfl

end Sys2Proof.Machine
end

