-- ==== Sys2Proof/Laws/Loop.lean ====
section
/-! SUPPORT. The numbers of the loops: the floored modulus, the clamp, the width tests, and what a sample leaves. -/

namespace Sys2Proof.Machine

/-! ### Numbers -/

/-- The floored modulus lies in `[0, m)` (spec/43_cdr_float.md R145 e). -/
theorem ratMod_bounds (x m : Rat) (hm : 0 < m) : 0 ≤ ratMod x m ∧ ratMod x m < m := by
  have h1 : (⌊x / m⌋ : Rat) ≤ x / m := Int.floor_le _
  have h2 : x / m < ⌊x / m⌋ + 1 := Int.lt_floor_add_one _
  rw [le_div_iff₀ hm] at h1
  rw [div_lt_iff₀ hm] at h2
  unfold ratMod
  constructor <;> nlinarith

/-- A value already in `[0, m)` is its own remainder. -/
theorem ratMod_of_lt (x m : Rat) (h0 : 0 ≤ x) (h : x < m) : ratMod x m = x := by
  have hm : 0 < m := lt_of_le_of_lt h0 h
  have : ⌊x / m⌋ = 0 := by
    rw [Int.floor_eq_zero_iff]
    exact ⟨div_nonneg h0 hm.le, (div_lt_one hm).mpr h⟩
  simp [ratMod, this]

/-- One full turn of the accumulator comes back to 0. -/
theorem ratMod_self (m : Rat) (hm : 0 < m) : ratMod m m = 0 := by
  simp [ratMod, div_self hm.ne']

theorem clampRat_bounds (x m : Rat) (hm : 0 ≤ m) : -m ≤ clampRat x (-m) m ∧ clampRat x (-m) m ≤ m := by
  unfold clampRat; split_ifs <;> constructor <;> linarith

theorem clampInt_bounds (x m : Int) (hm : 0 ≤ m) : -m ≤ clampInt x (-m) m ∧ clampInt x (-m) m ≤ m := by
  unfold clampInt; split_ifs <;> constructor <;> omega

/-- Fitting a width of `n + 1` bits is the two's-complement range. -/
theorem fitsIn_some (n : Nat) (v : Int) : fitsIn (some n) v = true ↔ -(2 ^ n) ≤ v ∧ v ≤ 2 ^ n - 1 := by
  simp [fitsIn]

@[simp] theorem fitsIn_none (v : Int) : fitsIn none v = true := rfl

@[simp] theorem fitsIn_zero (w : Option Nat) : fitsIn w 0 = true := by
  cases w with
  | none => rfl
  | some n => rw [fitsIn_some]; have : (0 : Int) < 2 ^ n := by positivity
              omega

/-- A value between two that fit fits. -/
theorem fitsIn_between (w : Option Nat) (a v b : Int) (ha : fitsIn w a = true) (hb : fitsIn w b = true)
    (h1 : a ≤ v) (h2 : v ≤ b) : fitsIn w v = true := by
  cases w with
  | none => rfl
  | some n => rw [fitsIn_some] at *; omega

/-- The negative of a non-negative value that fits, fits. -/
theorem fitsIn_neg (w : Option Nat) (v : Int) (h0 : 0 ≤ v) (h : fitsIn w v = true) : fitsIn w (-v) = true := by
  cases w with
  | none => rfl
  | some n => rw [fitsIn_some] at *; omega

/-- `width_s` is at least 1. -/
theorem widthS_pos (v : Int) : 1 ≤ widthS v := by
  unfold widthS; dsimp only; split_ifs <;> omega

theorem fxOne_pos : 0 < fxOne := by decide

/-! ### What a sample leaves -/

/-- No overflow: every checked value of the sample fits (spec/44_cdr_fixed.md R163). -/
theorem fixedOverflow_none (w : Option Nat) (k : CdrxLatch) (b : Bit) (u : CdrxUnit)
    (h : fixedOverflow w k b u = none) :
    fitsIn w (fixedPdf k b u) = true ∧ fitsIn w (fixedSum k b u) = true ∧ fitsIn w (fixedFtw k b u) = true ∧
      fitsIn w (fixedNextAcc k b u) = true := by
  unfold fixedOverflow at h
  split_ifs at h with h1 h2 h3 h4
  simp_all

/-- Constants that all fit (spec/44_cdr_fixed.md R162). -/
theorem firstUnfit_none (w : Option Nat) (k : CdrxLatch) (h : firstUnfit w k = none) :
    fitsIn w k.alpha = true ∧ fitsIn w k.ki = true ∧ fitsIn w k.kp = true ∧ fitsIn w k.imax = true ∧
      fitsIn w k.accsz = true ∧ fitsIn w k.ftw0 = true := by
  unfold firstUnfit at h
  split_ifs at h with h1 h2 h3 h4 h5 h6
  simp_all

variable (s : State)

/-- The state a CDRF sample leaves at the end of the unit's own step: REC_F, the unit and `SATF`, nothing else. -/
theorem realAdvance_state (k : CdrfLatch) (b : Bit) :
    (realAdvance k b s).1 =
      { s with
        ports := if realWraps s.cdrf then { s.ports with recF := s.ports.recF ++ [b] } else s.ports
        cdrf := realSample k b s.cdrf
        status := if realHits k b s.cdrf then withFlag .satf s.status else s.status } := by
  unfold realAdvance
  cases realWraps s.cdrf <;> cases realHits k b s.cdrf <;> rfl

/-- The response a CDRF sample leaves pending. -/
theorem realAdvance_pending (k : CdrfLatch) (b : Bit) :
    (realAdvance k b s).2 = if realHits k b s.cdrf then some ⟨0x04, BitVec.ofNat 64 s.cdrf.idx⟩ else none := by
  unfold realAdvance
  cases realHits k b s.cdrf <;> rfl

/-- The state a committed CDRX sample leaves: REC_X, the unit and `SATX`, nothing else. -/
theorem fixedAdvance_state (k : CdrxLatch) (b : Bit) :
    (fixedAdvance k b s).1 =
      { s with
        ports := if fixedWraps s.cdrx then { s.ports with recX := s.ports.recX ++ [b] } else s.ports
        cdrx := fixedSample k b s.cdrx
        status := if fixedHits k b s.cdrx then withFlag .satx s.status else s.status } := by
  unfold fixedAdvance
  cases fixedWraps s.cdrx <;> cases fixedHits k b s.cdrx <;> rfl

/-- The response a committed CDRX sample leaves pending. -/
theorem fixedAdvance_pending (k : CdrxLatch) (b : Bit) :
    (fixedAdvance k b s).2 = if fixedHits k b s.cdrx then some ⟨0x04, BitVec.ofNat 64 s.cdrx.idx⟩ else none := by
  unfold fixedAdvance
  cases fixedHits k b s.cdrx <;> rfl

end Sys2Proof.Machine
end

