-- ==== Sys2Proof/Laws/PerInstr.lean ====
section
/-! SUPPORT. One lemma per command of the family EncodedSelectsRow: the word a command is encoded to selects a row of the
opcode table, so it sets no operand bit its row does not use (spec/30_encoding.md R56, R60). -/

namespace Sys2Proof.Laws.EncodedSelectsRow

/-- The word of the command selects a row of the opcode table. -/
def Statement (i : Instr) : Prop := ∃ r ∈ opcodeTable, r.selectedBy (encode i) = true

/-- A row of the table with the word's opcode is selected when the word's operand respects the row's format. -/
theorem of_row (op : Byte) (arg : Arg) (f : Format) (h : opcodeTable.any (fun r => r.op == op && r.format == f) = true)
    (hu : arg &&& f.unused = 0) : ∃ r ∈ opcodeTable, r.selectedBy (mkWord op arg) = true := by
  obtain ⟨r, hr, hb⟩ := List.any_eq_true.mp h
  obtain ⟨ho, hf⟩ : r.op = op ∧ r.format = f := by simpa using hb
  exact ⟨r, hr, (selectedBy_mkWord r op arg).mpr ⟨ho.symm, by rw [hf]; exact hu⟩⟩

/-- The rows of format N carry no operand. -/
theorem of_row_N (op : Byte) (h : opcodeTable.any (fun r => r.op == op && r.format == .N) = true) :
    ∃ r ∈ opcodeTable, r.selectedBy (mkWord op 0) = true := of_row op 0 .N h (by decide)

theorem nop : Statement .nop := of_row_N 0x00 rfl
theorem reset : Statement .reset := of_row_N 0x01 rfl
theorem clrstat (n : BitVec 16) : Statement (.clrstat n) :=
  of_row 0x02 _ .C16 rfl (setWidth_and_high 16 n)
theorem encStart (v : Scheme) (tb : BitVec 32) : Statement (.encStart v tb) :=
  of_row 0x10 _ .ES rfl (argStart_unused v tb)
theorem encByte (b : Byte) : Statement (.encByte b) :=
  of_row 0x11 _ .B8 rfl (setWidth_and_high 8 b)
theorem encBit (b : Bit) : Statement (.encBit b) :=
  of_row 0x12 _ .B1 rfl (argBit_unused b)
theorem encRaw (b : Bit) : Statement (.encRaw b) :=
  of_row 0x13 _ .B1 rfl (argBit_unused b)
theorem encSync : Statement .encSync := of_row_N 0x14 rfl
theorem encFlush : Statement .encFlush := of_row_N 0x15 rfl
theorem encPre (n : BitVec 16) : Statement (.encPre n) :=
  of_row 0x16 _ .C16 rfl (setWidth_and_high 16 n)
theorem demStart : Statement .demStart := of_row_N 0x20 rfl
theorem demLevel (b : Bit) : Statement (.demLevel b) :=
  of_row 0x21 _ .B1 rfl (argBit_unused b)
theorem scnStart (v : Scheme) : Statement (.scnStart v) :=
  of_row 0x28 _ .S2 rfl (argScheme_unused v)
theorem scnBit (b : Bit) : Statement (.scnBit b) :=
  of_row 0x29 _ .B1 rfl (argBit_unused b)
theorem scnEnd : Statement .scnEnd := of_row_N 0x2A rfl
theorem cdrfStart : Statement .cdrfStart := of_row_N 0x30 rfl
theorem cdrfSample (b : Bit) : Statement (.cdrfSample b) :=
  of_row 0x31 _ .B1 rfl (argBit_unused b)
theorem cdrfAmp (b : Byte) : Statement (.cdrfAmp b) :=
  of_row 0x32 _ .B8 rfl (setWidth_and_high 8 b)
theorem cdrxStart : Statement .cdrxStart := of_row_N 0x38 rfl
theorem cdrxSample (b : Bit) : Statement (.cdrxSample b) :=
  of_row 0x39 _ .B1 rfl (argBit_unused b)
theorem cdrxAmp (b : Byte) : Statement (.cdrxAmp b) :=
  of_row 0x3A _ .B8 rfl (setWidth_and_high 8 b)
theorem wrAlpha (num den : BitVec 32) : Statement (.wrAlpha num den) :=
  of_row 0x40 _ .RAT rfl (argRat_unused num den)
theorem wrKi (num den : BitVec 32) : Statement (.wrKi num den) :=
  of_row 0x41 _ .RAT rfl (argRat_unused num den)
theorem wrKp (num den : BitVec 32) : Statement (.wrKp num den) :=
  of_row 0x42 _ .RAT rfl (argRat_unused num den)
theorem wrIntegMax (num den : BitVec 32) : Statement (.wrIntegMax num den) :=
  of_row 0x43 _ .RAT rfl (argRat_unused num den)
theorem wrAccSize (v : BitVec 32) : Statement (.wrAccSize v) :=
  of_row 0x44 _ .U32 rfl (setWidth_and_high 32 v)
theorem wrTbC (v : BitVec 32) : Statement (.wrTbC v) :=
  of_row 0x45 _ .U32 rfl (setWidth_and_high 32 v)
theorem wrChain (v : BitVec 3) : Statement (.wrChain v) :=
  of_row 0x46 _ .U3 rfl (setWidth_and_high 3 v)
theorem wrMarker (v : BitVec 64) : Statement (.wrMarker v) :=
  of_row 0x47 _ .U64 rfl (by simp [Format.unused])
theorem wrMarkerLen (v : BitVec 7) : Statement (.wrMarkerLen v) :=
  of_row 0x48 _ .U7 rfl (setWidth_and_high 7 v)
theorem rdAlpha : Statement .rdAlpha := of_row_N 0x80 rfl
theorem rdKi : Statement .rdKi := of_row_N 0x81 rfl
theorem rdKp : Statement .rdKp := of_row_N 0x82 rfl
theorem rdIntegMax : Statement .rdIntegMax := of_row_N 0x83 rfl
theorem rdAccSize : Statement .rdAccSize := of_row_N 0x84 rfl
theorem rdTbC : Statement .rdTbC := of_row_N 0x85 rfl
theorem rdChain : Statement .rdChain := of_row_N 0x86 rfl
theorem rdMarker : Statement .rdMarker := of_row_N 0x87 rfl
theorem rdMarkerLen : Statement .rdMarkerLen := of_row_N 0x88 rfl
theorem rdStatus : Statement .rdStatus := of_row_N 0x90 rfl
theorem rdEncState : Statement .rdEncState := of_row_N 0x91 rfl
theorem rdEncTb : Statement .rdEncTb := of_row_N 0x92 rfl
theorem rdEncDcnt : Statement .rdEncDcnt := of_row_N 0x93 rfl
theorem rdEncCcnt : Statement .rdEncCcnt := of_row_N 0x94 rfl
theorem rdDemState : Statement .rdDemState := of_row_N 0x95 rfl
theorem rdDemCnt : Statement .rdDemCnt := of_row_N 0x96 rfl
theorem rdScnState : Statement .rdScnState := of_row_N 0x97 rfl
theorem rdScnIdx : Statement .rdScnIdx := of_row_N 0x98 rfl
theorem rdScnPos : Statement .rdScnPos := of_row_N 0x99 rfl
theorem rdDecNbytes : Statement .rdDecNbytes := of_row_N 0x9A rfl
theorem rdDecDiscard : Statement .rdDecDiscard := of_row_N 0x9B rfl
theorem rdDecDangle : Statement .rdDecDangle := of_row_N 0x9C rfl
theorem rdScnSr : Statement .rdScnSr := of_row_N 0x9D rfl
theorem rdDecAsm : Statement .rdDecAsm := of_row_N 0x9E rfl
theorem rdScnEvidx : Statement .rdScnEvidx := of_row_N 0x9F rfl
theorem rdCdrfState : Statement .rdCdrfState := of_row_N 0xA0 rfl
theorem rdCdrfIdx : Statement .rdCdrfIdx := of_row_N 0xA1 rfl
theorem rdCdrfNrec : Statement .rdCdrfNrec := of_row_N 0xA2 rfl
theorem rdCdrfSat : Statement .rdCdrfSat := of_row_N 0xA3 rfl
theorem rdCdrfSatFirst : Statement .rdCdrfSatFirst := of_row_N 0xA4 rfl
theorem rdCdrxState : Statement .rdCdrxState := of_row_N 0xB0 rfl
theorem rdCdrxIdx : Statement .rdCdrxIdx := of_row_N 0xB1 rfl
theorem rdCdrxNrec : Statement .rdCdrxNrec := of_row_N 0xB2 rfl
theorem rdCdrxSat : Statement .rdCdrxSat := of_row_N 0xB3 rfl
theorem rdCdrxSatFirst : Statement .rdCdrxSatFirst := of_row_N 0xB4 rfl
theorem rdCdrxMaxw : Statement .rdCdrxMaxw := of_row_N 0xB5 rfl
theorem rdCdrxFaultIdx : Statement .rdCdrxFaultIdx := of_row_N 0xB6 rfl
theorem rdCdrxFaultStep : Statement .rdCdrxFaultStep := of_row_N 0xB7 rfl
theorem rdXAcc : Statement .rdXAcc := of_row_N 0xB8 rfl
theorem rdXLast : Statement .rdXLast := of_row_N 0xB9 rfl
theorem rdXPd : Statement .rdXPd := of_row_N 0xBA rfl
theorem rdXPdf : Statement .rdXPdf := of_row_N 0xBB rfl
theorem rdXInteg : Statement .rdXInteg := of_row_N 0xBC rfl
theorem rdXFtw : Statement .rdXFtw := of_row_N 0xBD rfl
theorem rdXAlpha : Statement .rdXAlpha := of_row_N 0xC0 rfl
theorem rdXKi : Statement .rdXKi := of_row_N 0xC1 rfl
theorem rdXKp : Statement .rdXKp := of_row_N 0xC2 rfl
theorem rdXImax : Statement .rdXImax := of_row_N 0xC3 rfl
theorem rdXAccsz : Statement .rdXAccsz := of_row_N 0xC4 rfl
theorem rdXFtw0 : Statement .rdXFtw0 := of_row_N 0xC5 rfl

end Sys2Proof.Laws.EncodedSelectsRow
end

