-- ==== Sys2Proof/Laws/Runs.lean ====
section
/-! SUPPORT. Runs of several commands, one after the other. -/

namespace Sys2Proof.Machine

/-- A run goes on from where its first command leaves the block. -/
theorem execAll_cons {i : Instr} {is : List Instr} {s t : State} (h : exec i s = .next t) :
    execAll (i :: is) s = execAll is t := by simp only [execAll]; rw [h]

/-- A run of two parts goes on from where the first part leaves the block. -/
theorem execAll_append (a b : List Instr) (s t : State) (h : execAll a s = .next t) :
    execAll (a ++ b) s = execAll b t := by
  induction a generalizing s with
  | nil => cases h; rfl
  | cons i is ih =>
    simp only [List.cons_append, execAll] at h ⊢
    cases he : exec i s with
    | next u => rw [he] at h; exact ih u h
    | fault f => rw [he] at h; cases h
    | refused r => rw [he] at h; cases h

/-- The same for the samples of CDRX at a given register width. -/
theorem fixedFeed_append (w : Option Nat) (a b : List Bit) (s t : State) (h : fixedFeed w a s = .next t) :
    fixedFeed w (a ++ b) s = fixedFeed w b t := by
  induction a generalizing s with
  | nil => cases h; rfl
  | cons i is ih =>
    simp only [List.cons_append, fixedFeed] at h ⊢
    cases he : fixedCommand w i s with
    | next u => rw [he] at h; exact ih u h
    | fault f => rw [he] at h; cases h
    | refused r => rw [he] at h; cases h

end Sys2Proof.Machine
end

