-- ==== Sys2Proof/Laws/Scn.lean ====
section
/-! SUPPORT. What the shared steps of SCN and DEM leave. -/

namespace Sys2Proof.Machine

variable (s : State)

/-! ### The octet assembler -/

theorem shiftByte_eq (v : BitVec 8) (d : Bit) :
    (v <<< 1) ||| BitVec.setWidth 8 (BitVec.ofBool d) = BitVec.ofNat 8 ((2 * v.toNat + d.toNat) % 256) := by
  revert v; cases d <;> decide

/-- Everything `DATABIT` does (spec/42_sync_frame.md R122). -/
theorem dataBit_eq (d : Bit) : dataBit d s = s.assembled d := by
  have h7 : s.scn.cnt = 7 ↔ s.scn.cnt.toNat = 7 :=
    ⟨fun h => by rw [h]; rfl, fun h => BitVec.eq_of_toNat_eq h⟩
  have h1 : s.scn.cnt + 1 = BitVec.ofNat 3 (s.scn.cnt.toNat + 1) := by
    apply BitVec.eq_of_toNat_eq; simp [BitVec.toNat_add]
  unfold dataBit State.assembled
  rw [shiftByte_eq, h1]
  by_cases h : s.scn.cnt.toNat = 7
  · rw [if_pos (h7.mpr h), if_pos h]; rfl
  · rw [if_neg (fun e => h (h7.mp e)), if_neg h]; rfl

theorem dataBits_eq (ds : List Bit) : dataBits ds s = ds.foldl State.assembled s := by
  have : (fun t d => dataBit d t) = State.assembled := by funext t d; exact dataBit_eq t d
  simp [dataBits, this]

/-! ### The scanner's steps -/

/-- The scanner runs exactly in the phases SCAN and PAYLOAD while it is not halted. -/
theorem scnRunning_iff (u : ScnUnit) :
    scnRunning u = true ↔ (u.phase = .scan ∨ u.phase = .payload) ∧ u.halt = false := by
  simp [scnRunning]

/-- What a code bit does while scanning. -/
theorem scnStep_scan (c : Bit) (h : s.scn.phase = .scan) :
    scnStep c s = .running (s.setScn (scanBit c s.scn)) := by simp [scnStep, h]

/-- What a code bit does in the payload. -/
theorem scnStep_payload (c : Bit) (h : s.scn.phase = .payload) :
    scnStep c s = match payStep c s with
      | .running t => .running (countCodeBit t)
      | .ended t => .ended t := by
  unfold scnStep
  exact (if_neg (by simp [h])).trans (by cases payStep c s <;> rfl)

/-- Everything an RLL27 payload bit can do: complete a codeword, extend a prefix, or violate the code. -/
theorem rllDecode_cases (c : Bit) :
    (∃ pat, rllPattern (collectedBits s.scn ++ [c]) = some pat ∧
      rllDecode c s = .running ((dataBits pat s).setScn { (dataBits pat s).scn with cbuf := 0, clen := 0 })) ∨
    (rllPattern (collectedBits s.scn ++ [c]) = none ∧ isRllPrefix (collectedBits s.scn ++ [c]) = true ∧
      rllDecode c s = .running (s.setScn { s.scn with
        cbuf := BitVec.ofNat 8 (msbNat (collectedBits s.scn ++ [c])), clen := s.scn.clen + 1 })) ∨
    (rllPattern (collectedBits s.scn ++ [c]) = none ∧ isRllPrefix (collectedBits s.scn ++ [c]) = false ∧
      rllDecode c s =
        .ended (raise .codeViolation s.scn.idx (s.setScn { s.scn with halt := true, evidx := s.scn.idx }))) := by
  cases hp : rllPattern (collectedBits s.scn ++ [c]) with
  | some pat => exact .inl ⟨pat, rfl, by simp [rllDecode, hp]⟩
  | none =>
    cases hx : isRllPrefix (collectedBits s.scn ++ [c]) with
    | true => exact .inr (.inl ⟨rfl, rfl, by simp [rllDecode, hp, hx]⟩)
    | false => exact .inr (.inr ⟨rfl, rfl, by simp [rllDecode, hp, hx]⟩)

/-- Forwarding to the scanner: a step of it if it runs, else the value is dropped (spec/41_nrzi.md R110). -/
theorem forwardScn_eq (c : Bit) :
    forwardScn c s = if scnRunning s.scn then scnStep c s else .running (setFlag .drop s) := rfl

/-- Forwarding to the demodulator. -/
theorem forwardDem_eq (b : Bit) :
    forwardDem b s = if s.dem.run then demStep b s else .running (setFlag .drop s) := rfl

/-- The first sample is only remembered (spec/41_nrzi.md R109). -/
theorem demStep_first (l : Bit) (h : s.dem.haveSample = false) :
    demStep l s = .running { s with dem := { s.dem with prev := l, haveSample := true } } := by
  simp [demStep, h, State.setDem]

/-- A later sample emits one code bit; what follows is the forwarding. -/
theorem demStep_later (l : Bit) (h : s.dem.haveSample = true) :
    demStep l s =
      if chainsScn s.cfg then
        forwardScn (s.dem.prev ^^ l)
          { s with dem := { s.dem with prev := l, haveSample := true, cnt := s.dem.cnt + 1 }
                   ports := { s.ports with demod := s.ports.demod ++ [s.dem.prev ^^ l] } }
      else
        .running
          { s with dem := { s.dem with prev := l, haveSample := true, cnt := s.dem.cnt + 1 }
                   ports := { s.ports with demod := s.ports.demod ++ [s.dem.prev ^^ l] } } := by
  unfold demStep; rw [if_pos h]; rfl

/-! ### What a step of the chain leaves unchanged -/

/-- Assembling octets touches only SCN and BYTE. -/
theorem foldl_assembled_frame (ds : List Bit) (s : State) :
    let t := ds.foldl State.assembled s
    t.cfg = s.cfg ∧ t.enc = s.enc ∧ t.dem = s.dem ∧ t.cdrf = s.cdrf ∧ t.cdrx = s.cdrx ∧ t.inbox = s.inbox ∧
      t.status = s.status := by
  induction ds generalizing s with
  | nil => exact ⟨rfl, rfl, rfl, rfl, rfl, rfl, rfl⟩
  | cons d ds ih =>
    have h : let t := s.assembled d
        t.cfg = s.cfg ∧ t.enc = s.enc ∧ t.dem = s.dem ∧ t.cdrf = s.cdrf ∧ t.cdrx = s.cdrx ∧ t.inbox = s.inbox ∧
          t.status = s.status := by
      unfold State.assembled; dsimp only; split <;> exact ⟨rfl, rfl, rfl, rfl, rfl, rfl, rfl⟩
    have := ih (s.assembled d)
    simp only [h] at this; exact this

/-- A step of the scanner touches only SCN, BYTE and, on a violation, `STATUS.CODEV` and the response. -/
theorem scnStep_frame (c : Bit) (t : State) (ht : scnStep c s = .running t ∨ scnStep c s = .ended t) :
    t.cfg = s.cfg ∧ t.enc = s.enc ∧ t.dem = s.dem ∧ t.cdrf = s.cdrf ∧ t.cdrx = s.cdrx ∧ t.inbox = s.inbox ∧
      (t.status = s.status ∨ t.status = withFlag .codev s.status) := by
  have one := foldl_assembled_frame [c] s
  simp only [List.foldl_cons, List.foldl_nil, ← dataBit_eq] at one
  obtain ⟨o1, o2, o3, o4, o5, o6, o7⟩ := one
  by_cases hp : s.scn.phase = .scan
  · rw [scnStep_scan s c hp] at ht
    rcases ht with h | h <;> cases h
    exact ⟨rfl, rfl, rfl, rfl, rfl, rfl, .inl rfl⟩
  · unfold scnStep at ht; rw [if_neg hp] at ht
    unfold payStep at ht
    cases hs : s.scn.dscheme <;> rw [hs] at ht <;> dsimp only at ht
    · rcases ht with h | h <;> cases h
      exact ⟨o1, o2, o3, o4, o5, o6, .inl o7⟩
    · rcases ht with h | h <;> cases h
      split
      · exact ⟨o1, o2, o3, o4, o5, o6, .inl o7⟩
      · exact ⟨rfl, rfl, rfl, rfl, rfl, rfl, .inl rfl⟩
    · rcases ht with h | h <;> cases h
      split
      · exact ⟨o1, o2, o3, o4, o5, o6, .inl o7⟩
      · exact ⟨rfl, rfl, rfl, rfl, rfl, rfl, .inl rfl⟩
    · rcases rllDecode_cases s c with ⟨pat, _, h⟩ | ⟨_, _, h⟩ | ⟨_, _, h⟩ <;> rw [h] at ht <;>
        dsimp only at ht <;> rcases ht with h | h <;> cases h
      · obtain ⟨p1, p2, p3, p4, p5, p6, p7⟩ := foldl_assembled_frame pat s
        rw [dataBits_eq]
        exact ⟨p1, p2, p3, p4, p5, p6, .inl p7⟩
      · exact ⟨rfl, rfl, rfl, rfl, rfl, rfl, .inl rfl⟩
      · exact ⟨rfl, rfl, rfl, rfl, rfl, rfl, .inr rfl⟩

/-- Forwarding to SCN touches only SCN, BYTE, `STATUS` (CODEV or DROP) and the response. -/
theorem forwardScn_frame (c : Bit) (t : State) (ht : forwardScn c s = .running t ∨ forwardScn c s = .ended t) :
    t.cfg = s.cfg ∧ t.enc = s.enc ∧ t.dem = s.dem ∧ t.cdrf = s.cdrf ∧ t.cdrx = s.cdrx ∧ t.inbox = s.inbox ∧
      (t.status = s.status ∨ t.status = withFlag .codev s.status ∨ t.status = withFlag .drop s.status) := by
  rw [forwardScn_eq] at ht
  split at ht
  · obtain ⟨h1, h2, h3, h4, h5, h6, h7⟩ := scnStep_frame s c t ht
    exact ⟨h1, h2, h3, h4, h5, h6, h7.imp_right .inl⟩
  · rcases ht with h | h <;> cases h
    exact ⟨rfl, rfl, rfl, rfl, rfl, rfl, .inr (.inr rfl)⟩

/-- Forwarding to DEM touches only DEM, SCN, DEMOD, BYTE, `STATUS` (CODEV or DROP) and the response. -/
theorem forwardDem_frame (b : Bit) (t : State) (ht : forwardDem b s = .running t ∨ forwardDem b s = .ended t) :
    t.cfg = s.cfg ∧ t.enc = s.enc ∧ t.cdrf = s.cdrf ∧ t.cdrx = s.cdrx ∧ t.inbox = s.inbox ∧
      (t.status = s.status ∨ t.status = withFlag .codev s.status ∨ t.status = withFlag .drop s.status) := by
  rw [forwardDem_eq] at ht
  split at ht
  · cases hh : s.dem.haveSample with
    | false =>
      rw [demStep_first s b hh] at ht
      rcases ht with h | h <;> cases h
      exact ⟨rfl, rfl, rfl, rfl, rfl, .inl rfl⟩
    | true =>
      rw [demStep_later s b hh] at ht
      split at ht
      · obtain ⟨h1, h2, _, h4, h5, h6, h7⟩ := forwardScn_frame _ _ t ht
        exact ⟨h1, h2, h4, h5, h6, h7⟩
      · rcases ht with h | h <;> cases h
        exact ⟨rfl, rfl, rfl, rfl, rfl, .inl rfl⟩
  · rcases ht with h | h <;> cases h
    exact ⟨rfl, rfl, rfl, rfl, rfl, .inr (.inr rfl)⟩

/-! ### RLL27 strings -/

theorem length_msbBits (n v : Nat) : (msbBits n v).length = n := by
  induction n with
  | zero => rfl
  | succ n ih => simp [msbBits, ih]

/-- A proper prefix of a codeword has 1 to 7 bits. -/
theorem isRllPrefix_length (buf : List Bit) (h : isRllPrefix buf = true) : 1 ≤ buf.length ∧ buf.length ≤ 7 := by
  simp only [isRllPrefix, Bool.and_eq_true, Bool.not_eq_true', List.any_eq_true, bne_iff_ne, ne_eq,
    List.isPrefixOf_iff_prefix] at h
  obtain ⟨hne, r, hr, hp, hd⟩ := h
  have h8 : r.2.length ≤ 8 := by
    have : ∀ r ∈ rllTable, r.2.length ≤ 8 := by decide
    exact this r hr
  have hle := hp.length_le
  have hlt : buf.length ≠ r.2.length := fun e => hd (hp.eq_of_length e)
  have h1 : buf ≠ [] := by intro e; simp [e] at hne
  have := List.length_pos_iff.mpr h1
  omega

end Sys2Proof.Machine
end

