-- ==== Sys2Proof/Tests/Slice0.lean ====
section
/-! SUPPORT. Tests and witnesses. The expected values come from spec/ (the encodings of R58 and R60, the vectors of
spec/95_test_vectors.md, worked examples of the rules), none from the model. `witness_<Name>…` shows a concrete state and
operands that meet the hypotheses of `Obligations.<Name>`, clause by clause. -/

open Sys2Proof Sys2Proof.Machine

namespace Sys2Proof.Tests

/-! ### Decoding: one word for every row, written out from its format and opcode (R58, R60) -/

/-- The word decodes to the command. -/
def decodesTo (p : CmdWord × Instr) : Bool :=
  match decode p.1 with
  | .ok i => decide (i = p.2)
  | .error _ => false

theorem test_decode_sys_enc : ([
    (0x000000000000000000, .nop), (0x010000000000000000, .reset), (0x0200000000000007FF, .clrstat 0x07FF),
    (0x100000000000010002, .encStart .mfm 1), (0x1100000000000000A1, .encByte 0xA1),
    (0x120000000000000001, .encBit true), (0x130000000000000001, .encRaw true), (0x140000000000000000, .encSync),
    (0x150000000000000000, .encFlush), (0x160000000000000103, .encPre 0x0103)] : List (CmdWord × Instr)).all decodesTo =
    true := rfl

theorem test_decode_units : ([
    (0x200000000000000000, .demStart), (0x210000000000000001, .demLevel true),
    (0x280000000000000002, .scnStart .mfm), (0x290000000000000001, .scnBit true), (0x2A0000000000000000, .scnEnd),
    (0x300000000000000000, .cdrfStart), (0x310000000000000001, .cdrfSample true),
    (0x3200000000000000FF, .cdrfAmp 0xFF), (0x380000000000000000, .cdrxStart),
    (0x390000000000000001, .cdrxSample true), (0x3A0000000000000080, .cdrxAmp 0x80)] : List (CmdWord × Instr)).all decodesTo =
    true := rfl

theorem test_decode_write : ([
    (0x4000000063000003E8, .wrAlpha 99 1000), (0x4100000089000F4240, .wrKi 137 1000000),
    (0x42FFFFFFFF00000004, .wrKp 0xFFFFFFFF 4), (0x430000000100000064, .wrIntegMax 1 100),
    (0x440000000000000400, .wrAccSize 1024), (0x450000000000000010, .wrTbC 16), (0x460000000000000005, .wrChain 5),
    (0x470123456789ABCDEF, .wrMarker 0x0123456789ABCDEF), (0x480000000000000040, .wrMarkerLen 64)] : List (CmdWord × Instr)).all decodesTo =
    true := rfl

theorem test_decode_read : ([
    (0x800000000000000000, .rdAlpha), (0x810000000000000000, .rdKi), (0x820000000000000000, .rdKp),
    (0x830000000000000000, .rdIntegMax), (0x840000000000000000, .rdAccSize), (0x850000000000000000, .rdTbC),
    (0x860000000000000000, .rdChain), (0x870000000000000000, .rdMarker), (0x880000000000000000, .rdMarkerLen),
    (0x900000000000000000, .rdStatus), (0x910000000000000000, .rdEncState), (0x920000000000000000, .rdEncTb),
    (0x930000000000000000, .rdEncDcnt), (0x940000000000000000, .rdEncCcnt), (0x950000000000000000, .rdDemState),
    (0x960000000000000000, .rdDemCnt), (0x970000000000000000, .rdScnState), (0x980000000000000000, .rdScnIdx),
    (0x990000000000000000, .rdScnPos), (0x9A0000000000000000, .rdDecNbytes), (0x9B0000000000000000, .rdDecDiscard),
    (0x9C0000000000000000, .rdDecDangle), (0x9D0000000000000000, .rdScnSr), (0x9E0000000000000000, .rdDecAsm),
    (0x9F0000000000000000, .rdScnEvidx), (0xA00000000000000000, .rdCdrfState), (0xA10000000000000000, .rdCdrfIdx),
    (0xA20000000000000000, .rdCdrfNrec), (0xA30000000000000000, .rdCdrfSat), (0xA40000000000000000, .rdCdrfSatFirst),
    (0xB00000000000000000, .rdCdrxState), (0xB10000000000000000, .rdCdrxIdx), (0xB20000000000000000, .rdCdrxNrec),
    (0xB30000000000000000, .rdCdrxSat), (0xB40000000000000000, .rdCdrxSatFirst), (0xB50000000000000000, .rdCdrxMaxw),
    (0xB60000000000000000, .rdCdrxFaultIdx), (0xB70000000000000000, .rdCdrxFaultStep),
    (0xB80000000000000000, .rdXAcc), (0xB90000000000000000, .rdXLast), (0xBA0000000000000000, .rdXPd),
    (0xBB0000000000000000, .rdXPdf), (0xBC0000000000000000, .rdXInteg), (0xBD0000000000000000, .rdXFtw),
    (0xC00000000000000000, .rdXAlpha), (0xC10000000000000000, .rdXKi), (0xC20000000000000000, .rdXKp),
    (0xC30000000000000000, .rdXImax), (0xC40000000000000000, .rdXAccsz), (0xC50000000000000000, .rdXFtw0)] : List (CmdWord × Instr)).all decodesTo =
    true := rfl

/-- R62, R60: an ENC.START at the ends of its fields; a bit 0 is read, the bit above a field is refused. -/
theorem test_decode_fields : ([(0x100000FFFFFFFF0003, .encStart .rll27 0xFFFFFFFF), (0x120000000000000000, .encBit false),
    (0x46000000000000000F, .wrChain 7), (0x16000000000000FFFF, .encPre 0xFFFF)] : List (CmdWord × Instr)).map decodesTo =
    [true, true, false, true] := rfl

theorem test_decode_reserved : decode 0x030000000000000000 = .error (.reservedOpcode 3) := rfl
theorem test_decode_stray : decode 0x120000000000000002 = .error (.strayOperandBits 0x12) := rfl
theorem test_table_word : decodeTableWord 72 0x1100000000000000A1 = some (.encByte 0xA1) := rfl

/-! ### WellFormed: an ill-formed term for each check (R59) -/

theorem test_wf_refuses : ([.encStart .mfm 0, .wrAlpha 1 0, .wrKi 1 0, .wrKp 1 0, .wrIntegMax 1 0, .wrIntegMax 0xFFFFFFFF 1,
    .wrAccSize 0, .wrTbC 0, .wrChain 3, .wrChain 7, .wrMarkerLen 0, .wrMarkerLen 65] : List Instr).all
    (fun i => !i.wf) = true := by decide
theorem test_wf_accepts : ([.encStart .mfm 1, .wrAlpha 0x80000000 1, .wrIntegMax 0 1, .wrAccSize 0xFFFFFFFF, .wrTbC 1,
    .wrChain 6, .wrMarkerLen 1, .wrMarkerLen 64, .wrMarker 0] : List Instr).all Instr.wf = true := by decide

/-! ### One step each, expected values from spec/95_test_vectors.md and the rules' examples -/

/-- The state a command leaves, or the state it began in if it stops. -/
def after (i : Instr) (s : State) : State :=
  match exec i s with
  | .next t => t
  | .fault _ => s
  | .refused _ => s

/-- A bit string written as a list of 0s and 1s. -/
def bin (l : List Nat) : List Bit := l.map (fun n => n == 1)

/-- ENC just started with the scheme. -/
def encoding (v : Scheme) : State := after (.encStart v 1) State.reset

/-- SCN after the MFM marker, with the payload scheme. -/
def decoding (v : Scheme) : State :=
  { State.reset with scn := { State.reset.scn with phase := .payload, dscheme := v, found := true, pos := 15, idx := 15 } }

/-- CDRF started with `ACC_SIZE = 1024`, `TB_C = 16`, `INTEG_MAX = 16` and gains 0. -/
def realUnit : CdrfUnit :=
  ⟨true, some ⟨1024, 0, 0, 0, 16, 128⟩, 0, 0, 0, 0, 0, 128, false, 0, 0, 0, 0⟩

/-- CDRX running with every latched constant 0 but the register size, so that every checked value is 0 and fits. -/
def fixedUnit : CdrxUnit :=
  ⟨true, false, false, 0, 0, 0, 0, 0, 0, 0, 0, 0, 0, 0, 0, 0, some ⟨0, 0, 0, 0, 2 ^ 20, 0⟩⟩

/-- T-ENC-MFM-1: 0xA1 under MFM. -/
theorem test_enc_byte_mfm : (after (.encByte 0xA1) (encoding .mfm)).ports.code =
    bin [0, 1, 0, 0, 0, 1, 0, 0, 1, 0, 1, 0, 1, 0, 0, 1] := by decide
theorem test_enc_byte_levels : (after (.encByte 0xA1) (encoding .mfm)).ports.level =
    bin [0, 1, 1, 1, 1, 0, 0, 0, 1, 1, 0, 0, 1, 1, 1, 0] := by decide
/-- T-ENC-RLL-1: `10 10 000 1`, the last bit pending. -/
theorem test_enc_byte_rll : (after (.encByte 0xA1) (encoding .rll27)).ports.code =
    bin [1, 0, 0, 0, 1, 0, 0, 0, 0, 0, 0, 1, 0, 0] ∧
    (after (.encByte 0xA1) (encoding .rll27)).enc.rllState = .one := by decide
/-- T-ENC-RAW-1: a flush before the raw bit. -/
theorem test_enc_raw : (after (.encRaw true) { encoding .rll27 with
    enc := { (encoding .rll27).enc with rllState := .zeroZeroOne } }).ports.code = bin [0, 0, 1, 0, 0, 1, 0, 0, 1] := by
  decide
/-- T-ENC-SYNC-1. -/
theorem test_enc_sync : (after .encSync (encoding .mfm)).ports.level =
    bin [1, 1, 1, 1, 0, 0, 0, 1, 1, 1, 1, 0, 0, 0, 1] ∧
    viewEncState (after .encSync (encoding .mfm)).enc = 0x85 := by decide
/-- T-ENC-PRE-1. -/
theorem test_enc_pre : (after (.encPre 1) (encoding .mfm)).ports.code =
    bin [0, 1, 0, 1, 0, 1, 0, 0, 1, 0, 0, 1, 0, 0, 0, 1] ∧ (after (.encPre 0) (encoding .mfm)).ports.code = [] := by decide
/-- T-ENC-ERR-1. -/
theorem test_enc_refusals : (after (.encByte 0xA1) State.reset).response = some ⟨0x13, 0⟩ ∧
    (after (.encStart .mfm 0) State.reset).response = some ⟨0x11, 0x10⟩ := by decide
/-- T-NRZ-5: the sample 0 after the sample 1. -/
theorem test_dem_level : (after (.demLevel false) { State.reset with dem := ⟨true, true, true, 0⟩ }).ports.demod = [true] ∧
    viewDemState (after (.demLevel false) { State.reset with dem := ⟨true, true, true, 0⟩ }).dem = 3 := by decide
/-- R117: the 15th bit of the marker ends the scan. -/
theorem test_scn_bit_finds : (after (.scnBit true) { State.reset with
    scn := { State.reset.scn with phase := .scan, sr := 0x2244, idx := 14 } }).scn.pos = 15 := by decide
/-- R125: no codeword begins `11`; the event's value is the index of the bit. -/
theorem test_scn_violation : (after (.scnBit true) { decoding .rll27 with
    scn := { (decoding .rll27).scn with cbuf := 1, clen := 1, idx := 16 } }).response = some ⟨0x05, 16⟩ := by decide
/-- R122: the eighth data bit completes an octet. -/
theorem test_scn_octet : (after (.scnBit true) { decoding .direct with
    scn := { (decoding .direct).scn with shift := 0x50, cnt := 7 } }).ports.byte = [0xA1] := by decide
/-- R189's examples: RD.ALPHA, RD.MARKER after reset, and the unwritten INTEG_MAX. -/
theorem test_reads : (after .rdAlpha State.reset).response = some ⟨0, 0x00000063000003E8⟩ ∧
    (after .rdMarker State.reset).response = some ⟨0, 0x4489⟩ ∧
    (after .rdIntegMax State.reset).response = some ⟨0x12, 3⟩ := by decide
/-- R161, S4: the quantised default gains. -/
theorem test_quantise : [quantise ⟨99, 1000⟩, quantise ⟨137, 1000000⟩, quantise ⟨93, 1000⟩] = [103809, 143, 97517] := by
  decide
/-- R187's example: mask 4 clears `OVF` only. -/
theorem test_clrstat : (after (.clrstat 4) { State.reset with status := 0x7FF }).status = 0x7FB := by decide
/-- T-NRZ-6. -/
theorem test_slice : [slice 0, slice 127, slice 128, slice 129, slice 255] = [false, false, false, true, true] := by decide
/-- R144: the first sample of 0 only advances the accumulator by the tuning word. -/
theorem test_cdrf_sample : (realSample ⟨1024, 0, 0, 0, 16, 128⟩ false realUnit).acc = 128 := by decide +kernel
/-- The word the interface places is the next one run. -/
theorem test_fetch_word : step (State.reset.withFetchWord 72 0x470000000000000001) =
    .next ({ State.reset with cfg := { State.reset.cfg with marker := 1 } }.answered 0 0) := rfl

/-! ### Witnesses -/

/-- The unit's constants with a clamp of 0: every sample hits it. -/
def clampedUnit : CdrfUnit :=
  { realUnit with latch := some ⟨1024, 0, 0, 0, 0, 128⟩, acc := 0, last := 1 }

/-- A configuration a loop can be started with: period 8 samples per symbol (`TB_C = 16`, `h = 4`). -/
def configured : State :=
  { State.reset with cfg := { State.reset.cfg with integMax := some ⟨16, 1⟩, accSize := some 1024, tbC := some 16 } }

theorem witness_EncodeInvertsDecode : decode 0x47FFFFFFFFFFFFFFFF = .ok (.wrMarker 0xFFFFFFFFFFFFFFFF) := rfl

/-- Also for the clauses of IllegalWordChangesNothingElse about stray operand bits. -/
theorem witness_DecodingFindsTheOneRow :
    (∃ r ∈ opcodeTable, (0x120000000000000001 : CmdWord) &&& r.mask = r.pattern) ∧
    (∃ r ∈ opcodeTable, opOf 0x120000000000000002 = r.op ∧ argOf 0x120000000000000002 &&& r.format.unused ≠ 0) :=
  have h : (⟨0x12, "ENC.BIT", .B1, fun a => .encBit (fieldBit a)⟩ : OpRow) ∈ opcodeTable := by simp [opcodeTable, sysEncRows]
  ⟨⟨_, h, rfl⟩, ⟨_, h, rfl, by decide⟩⟩

theorem witness_IllegalWord_step :
    ({ State.reset with inbox := [0xC60000000000000000] } : State).inbox = 0xC60000000000000000 :: [] ∧
    ∀ r ∈ opcodeTable, r.selectedBy 0xC60000000000000000 = false := ⟨rfl, fun r h => by
    simpa using List.all_eq_true.mp (show opcodeTable.all (fun r => !r.selectedBy 0xC60000000000000000) = true from rfl) r h⟩

theorem witness_StepRunsDecodedCommand :
    ({ State.reset with inbox := [0x840000000000000000] } : State).inbox = 0x840000000000000000 :: [] ∧
    decode 0x840000000000000000 = .ok .rdAccSize ∧ State.reset.inbox = [] := ⟨rfl, rfl, rfl⟩

theorem witness_ClrstatClearsTheMask :
    State.reset.status.toNat < 2 ^ 11 ∧ ({ State.reset with status := 0x7FF } : State).status.toNat < 2 ^ 11 := by decide

/-- For EncStartBeginsStream and EncodedStreamIsBitstream. -/
theorem witness_EncStartBeginsStream : (1 : BitVec 32) ≠ 0 ∧ (0xFFFFFFFF : BitVec 32) ≠ 0 := by decide

/-- Also for EncRawAndSyncBypassTheEncoder. -/
theorem witness_EncDataCommandsEncode : (encoding .mfm).enc.run = true ∧ (encoding .rll27).enc.run = true := by decide

theorem witness_EncFlushCompletesPattern :
    ((encoding .mfm).enc.run = true ∧ (encoding .mfm).enc.scheme ≠ .rll27) ∧
    ∀ st ∈ [RllState.idle, .one, .zero, .zeroOne, .zeroZero, .zeroZeroOne],
      let e : EncUnit := ⟨true, .rll27, 1, false, st, false, 0, 0⟩
      e.run = true ∧ e.scheme = .rll27 ∧ (e.rllState, (flushCode st).map Bool.toNat) ∈
        [(RllState.idle, []), (.one, [1, 0, 0, 0]), (.zero, [0, 0, 0, 1, 0, 0]), (.zeroOne, [0, 0, 1, 0, 0, 0]),
          (.zeroZero, [0, 0, 0, 1, 0, 0]), (.zeroZeroOne, [0, 0, 1, 0, 0, 1, 0, 0])] := by decide

theorem witness_EncRawAndSync_next : ∃ t, exec .encSync (encoding .rll27) = .next t ∧ (encoding .rll27).enc.run = true :=
  ⟨_, rfl, rfl⟩

/-- A gap of 0 and a gap of 1 zeros stand in FM streams (1,1 from a data 1; 1,0,1 from a data 0). -/
theorem witness_FmRunLength :
    true :: (List.replicate 0 false ++ [true]) <:+: (leRun .fm .start [true]).2 ∧
    true :: (List.replicate 1 false ++ [true]) <:+: (leRun .fm .start [false, true]).2 := by decide

/-- The shortest and the longest gap of an MFM stream: data 11, and data 101. -/
theorem witness_MfmRunLength :
    true :: (List.replicate 1 false ++ [true]) <:+: (leRun .mfm .start [true, true]).2 ∧
    true :: (List.replicate 3 false ++ [true]) <:+: (leRun .mfm .start [true, false, true]).2 := by decide

/-- The shortest and the longest gap of an RLL27 stream: data `011`, and `11` before `0011`. -/
theorem witness_RllRunLength :
    true :: (List.replicate 2 false ++ [true]) <:+: bitstream .rll27 [0x7E] ∧
    true :: (List.replicate 7 false ++ [true]) <:+: bitstream .rll27 [0x8C] := by decide

theorem witness_NotRunning_units :
    State.reset.enc.run = false ∧ State.reset.dem.run = false ∧ State.reset.cdrf.run = false ∧
    State.reset.cdrx.run = false ∧ ({ fixedUnit with halt := true } : CdrxUnit).halt = true ∧
    (State.reset.scn.phase ≠ .scan ∧ State.reset.scn.phase ≠ .payload) ∧
    ({ (decoding .rll27).scn with halt := true } : ScnUnit).halt = true ∧ State.reset.scn.phase = .idle ∧
    (after .scnEnd (decoding .direct)).scn.phase = .done := by decide

theorem witness_DemodulateInvertsModulate : 1 < 2 := by decide

theorem witness_DemSamplesCompareNeighbours :
    (after .demStart State.reset).dem.run = true ∧ (after .demStart State.reset).dem.haveSample = false ∧
    (after (.demLevel true) (after .demStart State.reset)).dem.run = true ∧
    (after (.demLevel true) (after .demStart State.reset)).dem.haveSample = true ∧
    (after (.demLevel true) (after .demStart State.reset)).cfg.chain.getLsbD 2 = false := by decide

/-- For DemStreamDemodulates and DemRecoversWhatEncSent. -/
theorem witness_DemStreamDemodulates : State.reset.cfg.chain.getLsbD 2 = false := by decide

/-- The default marker found at its last bit, and not found; a marker of one bit found, a marker of 64 bits not yet. -/
theorem witness_ScnBitScansForTheMarker :
    (let u := { State.reset.scn with phase := .scan, sr := 0x2244, idx := 14 };
      u.phase = .scan ∧ u.halt = false ∧ u.l.toNat ≤ u.idx + 1 ∧
        (2 * u.sr.toNat + true.toNat) % 2 ^ u.l.toNat = u.m.toNat % 2 ^ u.l.toNat ∧
        ¬(u.l.toNat ≤ u.idx + 1 ∧ (2 * u.sr.toNat + false.toNat) % 2 ^ u.l.toNat = u.m.toNat % 2 ^ u.l.toNat)) ∧
    (let u := { State.reset.scn with phase := .scan, l := 1 };
      u.l.toNat ≤ u.idx + 1 ∧ (2 * u.sr.toNat + true.toNat) % 2 ^ u.l.toNat = u.m.toNat % 2 ^ u.l.toNat) ∧
    (let u := { State.reset.scn with phase := .scan, l := 64 };
      u.l.toNat ≤ 64 ∧ ¬ u.l.toNat ≤ u.idx + 1) := by decide

/-- Marker lengths 15, 1 and 64, for ScannerComputesScan and RllFrameRoundTrip; each of the three schemes is not RLL27. -/
theorem witness_ScannerComputesScan :
    (1 ≤ State.reset.cfg.markerLen.toNat ∧ State.reset.cfg.markerLen.toNat ≤ 64) ∧
    (1 ≤ (1 : BitVec 7).toNat ∧ (64 : BitVec 7).toNat ≤ 64) ∧ Scheme.direct ≠ .rll27 ∧ Scheme.mfm ≠ .rll27 := by decide

theorem witness_ScannerComputesScan_both :
    scan Config.syncMarker (false :: Config.syncMarker) = some 16 ∧ scan Config.syncMarker [true, false] = none := by decide

theorem witness_PayloadBitsReachTheAssembler :
    ((decoding .direct).scn.phase = .payload ∧ (decoding .direct).scn.halt = false ∧ (decoding .direct).scn.dscheme = .direct) ∧
    ((decoding .fm).scn.dscheme = .fm ∧ (decoding .fm).scn.payIdx % 2 = 0) ∧
    ({ (decoding .mfm).scn with payIdx := 1 } : ScnUnit).payIdx % 2 = 1 := by decide

/-- The string `01` is collected: `0100` comes to an end with two more bits, `010` is a prefix string, `011` a violation. -/
theorem witness_RllPayloadBit :
    (decoding .rll27).scn.phase = .payload ∧ (decoding .rll27).scn.halt = false ∧ (decoding .rll27).scn.dscheme = .rll27 ∧
    (collectedBits { (decoding .rll27).scn with cbuf := 2, clen := 3 } ++ [false]).map Bool.toNat = [0, 1, 0, 0] ∧
    (collectedBits { (decoding .rll27).scn with cbuf := 1, clen := 2 } ++ [false]).map Bool.toNat = [0, 1, 0] ∧
    (collectedBits { (decoding .rll27).scn with cbuf := 1, clen := 2 } ++ [true]).map Bool.toNat = [0, 1, 1] := by decide

/-- A lead of two zeros and the octet 0xA1. -/
theorem witness_MfmFrameRoundTrip :
    State.reset.cfg.marker = 0x4489 ∧ State.reset.cfg.markerLen = 15 ∧
    scan Config.syncMarker ([false, false] ++ Config.syncMarker ++ bitstream .mfm [0xA1]) = some (2 + 15) := by decide

theorem witness_ScnEndOutcomes :
    (after (.scnStart .mfm) State.reset).scn.phase = .scan ∧ (decoding .mfm).scn.phase = .payload ∧
    (decoding .mfm).scn.cnt = 0 ∧ ({ (decoding .mfm).scn with cnt := 7 } : ScnUnit).cnt ≠ 0 ∧
    State.reset.scn.phase = .idle ∧ (after .scnEnd (decoding .mfm)).scn.phase = .done := by decide

/-- For CdrfStartLatchesConstants and CdrxStartQuantises: a complete configuration and each of the three gaps. -/
theorem witness_LoopStart :
    (configured.cfg.integMax = some ⟨16, 1⟩ ∧ configured.cfg.accSize = some 1024 ∧ configured.cfg.tbC = some 16) ∧
    (State.reset.cfg.integMax = none) ∧
    (let c := { State.reset.cfg with integMax := some ⟨16, 1⟩ };
      c.integMax ≠ none ∧ c.accSize = none) ∧
    (let c := { configured.cfg with tbC := none };
      c.integMax ≠ none ∧ c.accSize ≠ none ∧ c.tbC = none) := by decide

/-- At rest, and wrapping with another source chained; the two sides of the slicing threshold. -/
theorem witness_CdrfSampleRunsTheSevenSteps :
    (realUnit.run = true ∧ realUnit.latch = some ⟨1024, 0, 0, 0, 16, 128⟩ ∧ ¬ realUnit.acc < realUnit.last) ∧
    (clampedUnit.acc < clampedUnit.last ∧ (2 : BitVec 3).extractLsb' 0 2 ≠ 1) ∧
    ((true = true ↔ 128 < (129 : Byte).toNat) ∧ (false = true ↔ 128 < (128 : Byte).toNat)) := by
  refine ⟨⟨rfl, rfl, ?_⟩, ⟨?_, by decide⟩, by decide⟩ <;> norm_num [realUnit, clampedUnit]

theorem witness_CdrfSampleKeepsBounds : CdrfGood realUnit ∧ realUnit.latch = some ⟨1024, 0, 0, 0, 16, 128⟩ := by
  refine ⟨⟨rfl, ?_, ?_, ?_, ?_, le_refl _, le_refl _⟩, rfl⟩ <;> rintro k ⟨⟩ <;> norm_num [realUnit]

/-- For ZeroPhaseErrorReal, `h = 4`. -/
theorem witness_ZeroPhaseErrorReal :
    (1024 : BitVec 32) ≠ 0 ∧ (16 : BitVec 32).toNat = 4 * 4 ∧ 0 < 4 ∧ 0 ≤ (⟨16, 1⟩ : RatReg).num.toInt ∧
    configured.cfg.chain.extractLsb' 0 2 ≠ 1 := by decide

/-- For ZeroPhaseErrorFixed at width 32, `h = 4`. -/
theorem witness_ZeroPhaseErrorFixed :
    configured.cfg.chain.extractLsb' 0 2 ≠ 2 ∧ (2 * (1024 : BitVec 32).toNat * 2 ^ 20) % (4 * 4) = 0 ∧
    firstUnfit (some 31) (fixedLatch configured.cfg ⟨16, 1⟩ 1024 16) = none := by decide

/-- At 20 bits the constant `ACC_SIZE << 20` is the first that does not fit, at 9 bits the gain alpha. -/
theorem witness_CdrxStart_unfit :
    (∀ v ∈ [103809, 143, 97517], fitsIn (some 20) v = true) ∧ fitsIn (some 20) (1024 * 2 ^ 20) = false ∧
    fitsIn (some 8) 103809 = false := by decide

/-- With `inf`, and with every large enough width, all six constants fit. -/
theorem witness_CdrxStart_inf :
    firstUnfit none (fixedLatch configured.cfg ⟨16, 1⟩ 1024 16) = none := by decide

/-- All six constants 0, which fits whatever `W_FX` is (`ACC_SIZE = 0` is no legal value; the statement covers it). -/
theorem witness_CdrxStart_fits :
    let q := fun (r : RatReg) => r.num.toInt * 2 ^ 20 / (r.den.toNat : Int)
    let vs : List Int := [q ⟨0, 1⟩, q ⟨0, 1⟩, q ⟨0, 1⟩, q ⟨0, 1⟩, (0 : BitVec 32).toNat * 2 ^ 20,
      2 * (0 : BitVec 32).toNat * 2 ^ 20 / ((1 : BitVec 32).toNat : Int)]
    ∀ v ∈ vs, fits v = true := by
  intro q vs v hv
  have h : v = 0 := by simp [vs, q] at hv; omega
  rw [h]; exact fitsIn_zero _

/-- At rest with every checked value 0, which fits whatever `W_FX` is; the sum 0 is at the clamp 0, and within a clamp of 1. -/
theorem witness_CdrxSampleCommits :
    fixedUnit.run = true ∧ fixedUnit.halt = false ∧ fixedUnit.latch = some ⟨0, 0, 0, 0, 2 ^ 20, 0⟩ ∧
    ¬ fixedUnit.acc < fixedUnit.last ∧ fits 0 = true ∧
    [fixedPdf ⟨0, 0, 0, 0, 2 ^ 20, 0⟩ false fixedUnit, fixedSum ⟨0, 0, 0, 0, 2 ^ 20, 0⟩ false fixedUnit,
      fixedFtw ⟨0, 0, 0, 0, 2 ^ 20, 0⟩ false fixedUnit, fixedNextAcc ⟨0, 0, 0, 0, 2 ^ 20, 0⟩ false fixedUnit] = [0, 0, 0, 0] ∧
    (let k : CdrxLatch := ⟨0, 0, 0, 1, 2 ^ 20, 0⟩;
      ¬ (k.imax ≤ fixedSum k false fixedUnit ∨ fixedSum k false fixedUnit ≤ -k.imax)) :=
  ⟨rfl, rfl, rfl, by decide, fitsIn_zero _, by decide, by decide⟩

/-- At 8 bits a tuning word of 200 is the first value that does not fit (step 6), and an accumulator of 200 is (step 7). -/
theorem witness_CdrxOverflowIsPrecise :
    (let k : CdrxLatch := ⟨0, 0, 0, 0, 2 ^ 20, 200⟩;
      fitsIn (some 7) (fixedPdf k false fixedUnit) = true ∧ fitsIn (some 7) (fixedSum k false fixedUnit) = true ∧
      fitsIn (some 7) (fixedFtw k false fixedUnit) = false) ∧
    (let k : CdrxLatch := ⟨0, 0, 0, 0, 2 ^ 20, 100⟩;
      let u := { fixedUnit with acc := 100 };
      fitsIn (some 7) (fixedFtw k false u) = true ∧ fitsIn (some 7) (fixedNextAcc k false u) = false) := by decide

/-- `width_s` (spec/00_scope.md section 6, R167) at its boundaries: 0 and -1 take one bit, 127 and -128 eight, 128 nine. -/
theorem witness_WidthIsTheLeastThatHolds :
    [0, -1, 1, 127, -128, 128].map widthS = [1, 1, 2, 8, 8, 9] ∧ (1 ≤ 1 ∧ -(2 ^ (1 - 1)) ≤ (-1 : Int) ∧ (-1 : Int) < 2 ^ (1 - 1)) := by
  decide

/-- A good state in the middle of work: ENC and SCN under RLL27, CDRF running, a flag set. For
CdrxInvariantAfterEveryCommand, GoodStatesStepToGoodStates and EveryRunIsSafe. -/
theorem witness_Inv : Machine.Inv { encoding .rll27 with
    scn := { (decoding .rll27).scn with cbuf := 1, clen := 7 }, cdrf := realUnit, status := 0x7FF } where
  cfg := ⟨by decide, by decide, by decide, (fun _ h => by cases h), (fun _ h => by cases h), (fun _ h => by cases h),
    by decide, by decide⟩
  status := by decide
  enc := ⟨by decide, by decide, by decide⟩
  scn := ⟨by decide, by decide, by decide, by decide, by decide, by decide, by decide⟩
  cdrf := witness_CdrfSampleKeepsBounds.1
  cdrx := ⟨rfl, (fun _ h => by cases h), (fun _ h => by cases h), (fun _ h => by cases h), (fun _ h => by cases h),
    (fun _ h => by cases h), ⟨fitsIn_zero _, fitsIn_zero _, fitsIn_zero _, fitsIn_zero _⟩, le_refl _, le_refl _,
    (fun h => by cases h), ⟨⟨fun _ => rfl, fun _ => rfl⟩, fun h => by cases h⟩⟩

/-- The same for a running CDRX, in a block whose `W_FX` holds its constant `2^20`. -/
theorem witness_CdrxGood (h : fits (2 ^ 20) = true) : CdrxGood fixedUnit := by
  refine ⟨rfl, ?_, ?_, ?_, ?_, ?_, ⟨fitsIn_zero _, fitsIn_zero _, fitsIn_zero _, fitsIn_zero _⟩, le_refl _, le_refl _,
    (fun h => by cases h), ⟨⟨fun _ => rfl, fun _ => rfl⟩, fun h => by cases h⟩⟩ <;> rintro k ⟨⟩
  · unfold fits at h; simp only [firstUnfit, fitsIn_zero, h, Bool.not_true]; rfl
  all_goals decide

theorem witness_RunningWithoutConstantsStops :
    (let u := { realUnit with latch := none };
      u.run = true ∧ u.latch = none) ∧
    (let u := { fixedUnit with latch := none };
      u.run = true ∧ u.halt = false ∧ u.latch = none) := ⟨⟨rfl, rfl⟩, ⟨rfl, rfl, rfl⟩⟩

/-- DEM with a sample, chained to a scanner that runs and to one that does not. -/
theorem witness_DemForwardsToScn :
    (⟨true, true, false, 1⟩ : DemUnit).run = true ∧ (⟨true, true, false, 1⟩ : DemUnit).haveSample = true ∧
    (4 : BitVec 3).getLsbD 2 = true ∧
    (((decoding .mfm).scn.phase = .scan ∨ (decoding .mfm).scn.phase = .payload) ∧ (decoding .mfm).scn.halt = false) ∧
    ¬((State.reset.scn.phase = .scan ∨ State.reset.scn.phase = .payload) ∧ State.reset.scn.halt = false) := by decide

/-- CDRF wrapping and chained, `CHAIN = 1`. -/
def chainedF : State := { State.reset with cdrf := clampedUnit, cfg := { State.reset.cfg with chain := 1 } }

/-- CDRX wrapping and chained, `CHAIN = 2`; every checked value of a sample is 0. -/
def chainedX : State := { State.reset with cdrx := { fixedUnit with last := 1 }, cfg := { State.reset.cfg with chain := 2 } }

theorem running_sample_next (b : Bit) (s : State) (k : CdrfLatch) (h1 : s.cdrf.run = true) (h2 : s.cdrf.latch = some k) :
    ∃ own, exec (.cdrfSample b) s = .next own := by
  show ∃ own, realCommand b s = .next own
  unfold realCommand
  rw [if_pos h1, h2]
  exact finish_next _ _

/-- DEM runs or does not. -/
theorem witness_LoopsForwardToDem_real :
    chainedF.cdrf.run = true ∧ chainedF.cdrf.acc < chainedF.cdrf.last ∧ chainedF.cfg.chain.extractLsb' 0 2 = 1 ∧
    chainedF.dem.run = false ∧ (after .demStart chainedF).dem.run = true ∧
    ∃ own, exec (.cdrfSample true) { chainedF with cfg := { chainedF.cfg with chain := 0 } } = .next own :=
  ⟨rfl, by norm_num [chainedF, clampedUnit], by decide, rfl, rfl,
    running_sample_next true _ _ rfl rfl⟩

theorem chainedX_fits :
    fixedOverflow Config.fxWidthPred ⟨0, 0, 0, 0, 2 ^ 20, 0⟩ false { fixedUnit with last := 1 } = none := by
  unfold fixedOverflow
  rw [show fixedPdf ⟨0, 0, 0, 0, 2 ^ 20, 0⟩ false { fixedUnit with last := 1 } = 0 by decide,
    show fixedSum ⟨0, 0, 0, 0, 2 ^ 20, 0⟩ false { fixedUnit with last := 1 } = 0 by decide,
    show fixedFtw ⟨0, 0, 0, 0, 2 ^ 20, 0⟩ false { fixedUnit with last := 1 } = 0 by decide,
    show fixedNextAcc ⟨0, 0, 0, 0, 2 ^ 20, 0⟩ false { fixedUnit with last := 1 } = 0 by decide]
  simp

theorem unchained_sample_next (b : Bit) (s : State) (k : CdrxLatch) (h1 : s.cdrx.run = true)
    (h2 : s.cdrx.halt = false) (h3 : s.cdrx.latch = some k) (h4 : fixedOverflow Config.fxWidthPred k b s.cdrx = none)
    (h5 : (chainSource s.cfg == some .fixed) = false) :
    ∃ own, exec (.cdrxSample b) s = .next own ∧ own.cdrx.halt = false := by
  show ∃ own, fixedCommand Config.fxWidthPred b s = .next own ∧ own.cdrx.halt = false
  unfold fixedCommand
  rw [if_pos (by rw [h1, h2]; rfl), h3]
  dsimp only [fixedStep]
  rw [h4]
  dsimp only
  rw [h5, Bool.and_false, if_neg (by decide), finish_running, fixedAdvance_state]
  exact ⟨_, rfl, h2⟩

theorem witness_LoopsForwardToDem_fixed :
    chainedX.cdrx.run = true ∧ chainedX.cdrx.halt = false ∧ chainedX.cdrx.acc < chainedX.cdrx.last ∧
    chainedX.cfg.chain.extractLsb' 0 2 = 2 ∧
    ∃ own, exec (.cdrxSample false) { chainedX with cfg := { chainedX.cfg with chain := 0 } } = .next own ∧
      own.cdrx.halt = false :=
  ⟨rfl, rfl, by decide, by decide, unchained_sample_next false _ _ rfl rfl rfl chainedX_fits rfl⟩

/-- The chain `CHAIN = 5` with one 1 collected by the scanner and a sample that changes the level. -/
theorem witness_CodeViolationOutranksSaturation :
    clampedUnit.run = true ∧ clampedUnit.latch = some ⟨1024, 0, 0, 0, 0, 128⟩ ∧ clampedUnit.acc < clampedUnit.last ∧
    (⟨true, true, false, 1⟩ : DemUnit).prev ≠ true ∧ (decoding .rll27).scn.phase = .payload ∧
    (decoding .rll27).scn.halt = false ∧ (decoding .rll27).scn.dscheme = .rll27 ∧
    collectedBits { (decoding .rll27).scn with cbuf := 1, clen := 1 } = [true] ∧
    realHits ⟨1024, 0, 0, 0, 0, 128⟩ true clampedUnit = true :=
  ⟨rfl, rfl, by norm_num [clampedUnit], by decide, rfl, rfl, rfl, by decide,
    by norm_num [realHits, hitsClampRat, realSum, realPdf, clampedUnit, realUnit]⟩

/-- The legal values at the ends of their ranges. -/
theorem witness_WriteStoresLegalValue :
    (1 : BitVec 32) ≠ 0 ∧ 0 ≤ (0 : BitVec 32).toInt ∧ 0 ≤ (0x7FFFFFFF : BitVec 32).toInt ∧
    (6 : BitVec 3).toNat % 4 ≠ 3 ∧ (0 : BitVec 3).toNat % 4 ≠ 3 ∧
    (1 ≤ (1 : BitVec 7).toNat ∧ (64 : BitVec 7).toNat ≤ 64) := by decide

theorem witness_IllegalOperandChangesNothingElse : (Instr.wrMarkerLen 65).wf = false := by decide

theorem witness_ReadConfiguration :
    configured.cfg.integMax = some ⟨16, 1⟩ ∧ State.reset.cfg.integMax = none ∧ configured.cfg.accSize = some 1024 ∧
    State.reset.cfg.accSize = none ∧ configured.cfg.tbC = some 16 ∧ State.reset.cfg.tbC = none := by decide

theorem witness_ReadLoops :
    fixedUnit.latch = some ⟨0, 0, 0, 0, 2 ^ 20, 0⟩ ∧ State.reset.cdrx.latch = none ∧
    (-(2 ^ 63) ≤ (-(2 ^ 63) : Int) ∧ ((2 ^ 63 - 1 : Int)) < 2 ^ 63) := by decide

theorem witness_ReadsAreIdempotent : ∃ r ∈ readLowRows ++ readHighRows, opOf (encode .rdXFtw0) = r.op :=
  ⟨⟨0xC5, "RD.X_FTW0", .N, fun _ => .rdXFtw0⟩, by simp [readHighRows], rfl⟩

theorem witness_ConfigurationIsLatched :
    ∃ t, configured.cfg.chain = State.reset.cfg.chain ∧ exec .encFlush (encoding .rll27) = .next t := ⟨_, rfl, rfl⟩

/-- For StatusSteersNothing, StatusFlagsAreSticky, PortsOnlyGrow and CommandsStayInTheirUnits. -/
theorem witness_StatusFlagsAreSticky :
    (∃ t, exec (.encByte 0xA1) { encoding .mfm with status := 0x400 } = .next t) ∧
    (0x400 : BitVec 64).getLsbD 10 = true ∧ Instr.encByte 0xA1 ≠ .rdStatus ∧ Instr.encByte 0xA1 ≠ .reset ∧
    ∀ m, Instr.encByte 0xA1 ≠ .clrstat m := ⟨⟨_, rfl⟩, by decide, by decide, by decide, fun _ h => by cases h⟩

end Sys2Proof.Tests
end

section
/-! PROOFS. The family of spec/00_scope.md: a step runs the decoded command, the ports only grow, every run is safe.

The layer below serves all three. `CommandForm` says once what the 80 commands come down to, so that a proof about every
command is a proof about its 17 forms; `scnStep_payload_cases` says once what a payload bit can do. -/

namespace Sys2Proof.Machine

/-! ### Accepting a word -/

/-- The block waits while the host has issued no word. -/
theorem step_nil (s : State) (h : s.inbox = []) : step s = .next s := by
  simp [step, fetch_nil s h]

/-- A step on a word that decodes is the execution of its command. -/
theorem step_of_decode_ok {s : State} {cw : CmdWord} {rest : List CmdWord} {i : Instr} (h : s.inbox = cw :: rest)
    (hd : decode cw = .ok i) : step s = exec i { s with inbox := rest } := by
  simp [step, fetch_cons s cw rest h, hd]

/-- A step on a word that does not decode raises IllegalCommand (spec/30_encoding.md R61). -/
theorem step_of_decode_error {s : State} {cw : CmdWord} {rest : List CmdWord} {e : DecodeError}
    (h : s.inbox = cw :: rest) (hd : decode cw = .error e) :
    step s = .next (raise .illegalCommand e.op.toNat { s with inbox := rest }) := by
  simp [step, fetch_cons s cw rest h, hd, illegalCommand]

/-- Settles O6, by the two cases of accepting a word. -/
theorem stepRunsDecodedCommand : Obligations.StepRunsDecodedCommand :=
  ⟨fun _ _ _ _ h hd => step_of_decode_ok h hd, step_nil⟩

/-! ### The forms of a command -/

/-- The outcomes of the commands in the state `s`, one constructor per form: the sample commands of a loop share one, the
six encoding commands are data bits or code bits sent, the `WR` commands keep a legal configuration legal. -/
inductive CommandForm (s : State) : StepOutcome → Prop
  | nop : CommandForm s (execNop s)
  | reset : CommandForm s (execReset s)
  | clrstat (mask : BitVec 16) : CommandForm s (execClrstat mask s)
  | encStart (v : Scheme) (tb : BitVec 32) : CommandForm s (execEncStart v tb s)
  | encData (ds : List Bit) : CommandForm s (encCommand (fun t => t.sentData ds) s)
  | encCode (cs : List Bit) : CommandForm s (encCommand (fun t => t.flushed.sentCode cs) s)
  | demStart : CommandForm s (execDemStart s)
  | demLevel (l : Bit) : CommandForm s (execDemLevel l s)
  | scnStart (v : Scheme) : CommandForm s (execScnStart v s)
  | scnBit (c : Bit) : CommandForm s (execScnBit c s)
  | scnEnd : CommandForm s (execScnEnd s)
  | cdrfStart : CommandForm s (execCdrfStart s)
  | cdrfLevel (b : Bit) : CommandForm s (realCommand b s)
  | cdrxStart : CommandForm s (fixedStart Config.fxWidthPred s)
  | cdrxLevel (b : Bit) : CommandForm s (fixedCommand Config.fxWidthPred b s)
  | write (op : Nat) (legal : Bool) (cfg : CfgRegs) (h : legal = true → CfgLegal s.cfg → CfgLegal cfg) :
      CommandForm s (writeReg op legal cfg s)
  | read (idx : Nat) (v : Option (BitVec 64)) : CommandForm s (readReg idx v s)

theorem encByte_form (b : Byte) (s : State) :
    exec (.encByte b) s = encCommand (fun t => t.sentData (octetBits b)) s :=
  congrArg (encCommand · s) (funext fun t => encodeOctet_eq t b)

theorem encBit_form (d : Bit) (s : State) : exec (.encBit d) s = encCommand (fun t => t.sentData [d]) s :=
  congrArg (encCommand · s) (funext fun t => encodeBit_eq t d)

theorem encPre_form (n : BitVec 16) (s : State) :
    exec (.encPre n) s =
      encCommand (fun t => t.sentData (bits (List.replicate n.toNat Config.preambleOctet))) s :=
  congrArg (encCommand · s) (funext fun t => encodeOctet_iterate t _ _)

theorem encRaw_form (c : Bit) (s : State) :
    exec (.encRaw c) s = encCommand (fun t => t.flushed.sentCode [c]) s := by
  simp only [exec, execEncRaw, pushCode_eq, flushLine_eq]

theorem encSync_form (s : State) :
    exec .encSync s = encCommand (fun t => t.flushed.sentCode Config.syncMarker) s := by
  simp only [exec, execEncSync, pushCodes_eq, flushLine_eq]

theorem encFlush_form (s : State) : exec .encFlush s = encCommand (fun t => t.flushed.sentCode []) s :=
  congrArg (encCommand · s) (funext fun t => by rw [flushLine_eq, sentCode_nil])

theorem legalRat_den {num den : BitVec 32} (h : legalRat ⟨num, den⟩ = true) : den ≠ 0 := by
  simpa [legalRat] using h

theorem legalNonzero_ne {v : BitVec 32} (h : legalNonzero v = true) : v ≠ 0 := by
  simpa [legalNonzero] using h

/-- Every command has one of the forms. -/
theorem exec_form (i : Instr) (s : State) : CommandForm s (exec i s) := by
  cases i with
  | nop => exact .nop
  | reset => exact .reset
  | clrstat mask => exact .clrstat mask
  | encStart v tb => exact .encStart v tb
  | encByte b => rw [encByte_form]; exact .encData _
  | encBit d => rw [encBit_form]; exact .encData _
  | encPre n => rw [encPre_form]; exact .encData _
  | encRaw c => rw [encRaw_form]; exact .encCode _
  | encSync => rw [encSync_form]; exact .encCode _
  | encFlush => rw [encFlush_form]; exact .encCode _
  | demStart => exact .demStart
  | demLevel l => exact .demLevel l
  | scnStart v => exact .scnStart v
  | scnBit c => exact .scnBit c
  | scnEnd => exact .scnEnd
  | cdrfStart => exact .cdrfStart
  | cdrfSample b => exact .cdrfLevel b
  | cdrfAmp a => exact .cdrfLevel (slice a)
  | cdrxStart => exact .cdrxStart
  | cdrxSample b => exact .cdrxLevel b
  | cdrxAmp a => exact .cdrxLevel (slice a)
  | wrAlpha num den => exact .write _ _ _ fun hl h => { h with alpha := legalRat_den hl }
  | wrKi num den => exact .write _ _ _ fun hl h => { h with ki := legalRat_den hl }
  | wrKp num den => exact .write _ _ _ fun hl h => { h with kp := legalRat_den hl }
  | wrIntegMax num den =>
    refine .write _ _ _ fun hl h => { h with integMax := ?_ }
    rintro r ⟨⟩
    simpa [legalIntegMax] using hl
  | wrAccSize v =>
    refine .write _ _ _ fun hl h => { h with accSize := ?_ }
    rintro w ⟨⟩
    exact legalNonzero_ne hl
  | wrTbC v =>
    refine .write _ _ _ fun hl h => { h with tbC := ?_ }
    rintro w ⟨⟩
    exact legalNonzero_ne hl
  | wrChain v => exact .write _ _ _ fun hl h => { h with chain := by simpa [legalChain] using hl }
  | wrMarker v => dsimp only [exec]; exact .write _ _ _ fun _ h => { h with }
  | wrMarkerLen v => exact .write _ _ _ fun hl h => { h with markerLen := by simpa [legalMarkerLen] using hl }
  | rdAlpha | rdKi | rdKp | rdIntegMax | rdAccSize | rdTbC | rdChain | rdMarker | rdMarkerLen => dsimp only [exec]; exact .read _ _
  | rdStatus | rdEncState | rdEncTb | rdEncDcnt | rdEncCcnt | rdDemState | rdDemCnt => dsimp only [exec]; exact .read _ _
  | rdScnState | rdScnIdx | rdScnPos | rdDecNbytes | rdDecDiscard | rdDecDangle => dsimp only [exec]; exact .read _ _
  | rdScnSr | rdDecAsm | rdScnEvidx => dsimp only [exec]; exact .read _ _
  | rdCdrfState | rdCdrfIdx | rdCdrfNrec | rdCdrfSat | rdCdrfSatFirst => dsimp only [exec]; exact .read _ _
  | rdCdrxState | rdCdrxIdx | rdCdrxNrec | rdCdrxSat | rdCdrxSatFirst => dsimp only [exec]; exact .read _ _
  | rdCdrxMaxw | rdCdrxFaultIdx | rdCdrxFaultStep => dsimp only [exec]; exact .read _ _
  | rdXAcc | rdXLast | rdXPd | rdXPdf | rdXInteg | rdXFtw => dsimp only [exec]; exact .read _ _
  | rdXAlpha | rdXKi | rdXKp | rdXImax | rdXAccsz | rdXFtw0 => dsimp only [exec]; exact .read _ _

/-! ### Where a command's pseudocode ends -/

/-- The state a command's pseudocode has reached, ended by a `raise` or not. -/
def Progress.state : Progress → State
  | .running s => s
  | .ended s => s

/-- Ending a command changes nothing but the response. -/
theorem finish_state (p : Option Response) (g : Progress) : ∃ r, finish p g = .next (g.state.setResponse r) := by
  cases g with
  | running s => exact ⟨_, finish_running s p⟩
  | ended s => exact ⟨s.response, finish_ended s p⟩

/-! ### A payload bit -/

/-- The state after a payload bit that completed the data bits `ds`, with what RLL27 has collected since. -/
def State.decoded (s : State) (ds : List Bit) (cbuf : BitVec 8) (clen : BitVec 4) : State :=
  let t := ds.foldl State.assembled s
  t.setScn { t.scn with cbuf := cbuf, clen := clen, payIdx := t.scn.payIdx + 1 }

/-- Assembling octets touches only three registers of SCN. -/
theorem foldl_assembled_scn (ds : List Bit) (s : State) :
    let t := ds.foldl State.assembled s
    t.scn = { s.scn with shift := t.scn.shift, cnt := t.scn.cnt, nbytes := t.scn.nbytes } := by
  induction ds generalizing s with
  | nil => rfl
  | cons d ds ih =>
    have one : (s.assembled d).scn = { s.scn with
        shift := (s.assembled d).scn.shift, cnt := (s.assembled d).scn.cnt, nbytes := (s.assembled d).scn.nbytes } := by
      unfold State.assembled; dsimp only; split <;> rfl
    exact (ih (s.assembled d)).trans (by rw [one]; rfl)

/-- Everything `PAYSTEP` can do: it completes data bits, possibly none, and counts the code bit, or the bit violates
RLL27 (spec/42_sync_frame.md R121 to R125). -/
theorem payStep_cases (s : State) (c : Bit) :
    (∃ ds cbuf clen, (s.scn.clen.toNat ≤ 7 → clen.toNat ≤ 7) ∧ payStep c s = .running (s.decoded ds cbuf clen)) ∨
    (s.scn.dscheme = .rll27 ∧ payStep c s =
      .ended (raise .codeViolation s.scn.idx (s.setScn { s.scn with halt := true, evidx := s.scn.idx }))) := by
  have data (ds : List Bit) : ∃ ds' cbuf clen, (s.scn.clen.toNat ≤ 7 → clen.toNat ≤ 7) ∧
      Progress.running (countPayload (dataBits ds s)) = .running (s.decoded ds' cbuf clen) :=
    ⟨ds, (ds.foldl State.assembled s).scn.cbuf, (ds.foldl State.assembled s).scn.clen,
      fun hl => by rwa [foldl_assembled_scn], by rw [dataBits_eq]; rfl⟩
  unfold payStep
  split
  case h_1 | h_2 =>
    split
    · exact .inl (data [c])
    · exact .inl (data [])
  case h_3 => exact .inl (data [c])
  case h_4 hs =>
    obtain ⟨pat, -, he⟩ | ⟨-, hx, he⟩ | ⟨-, -, he⟩ := rllDecode_cases s c <;> rw [he]
    · exact .inl ⟨pat, 0, 0, fun _ => by decide, by rw [dataBits_eq]; rfl⟩
    · refine .inl ⟨[], _, s.scn.clen + 1, fun _ => ?_, rfl⟩
      have hlen := (isRllPrefix_length _ hx).2
      simp only [collectedBits, List.length_append, length_msbBits, List.length_singleton] at hlen
      rw [BitVec.toNat_add]
      exact (Nat.mod_le _ _).trans hlen
    · exact .inr ⟨hs, rfl⟩

/-- Everything a code bit in the payload can do: what `PAYSTEP` does, counted unless it was a violation. -/
theorem scnStep_payload_cases (s : State) (c : Bit) (h : s.scn.phase = .payload) :
    (∃ ds cbuf clen, (s.scn.clen.toNat ≤ 7 → clen.toNat ≤ 7) ∧
      scnStep c s = .running (countCodeBit (s.decoded ds cbuf clen))) ∨
    (s.scn.dscheme = .rll27 ∧ scnStep c s =
      .ended (raise .codeViolation s.scn.idx (s.setScn { s.scn with halt := true, evidx := s.scn.idx }))) := by
  rw [scnStep_payload s c h]
  obtain ⟨ds, cbuf, clen, hl, he⟩ | ⟨hs, he⟩ := payStep_cases s c <;> rw [he]
  · exact .inl ⟨ds, cbuf, clen, hl, rfl⟩
  · exact .inr ⟨hs, rfl⟩

/-! ### What the START commands and the samples of the loops can do -/

/-- CDRF.START latches a complete configuration or raises BadConfig. -/
theorem execCdrfStart_cases (s : State) :
    (∃ n, execCdrfStart s = .next (raise .badConfig n s)) ∨
    ∃ im az tb, s.cfg.integMax = some im ∧ s.cfg.accSize = some az ∧ s.cfg.tbC = some tb ∧
      execCdrfStart s = done (s.setCdrf
        { run := true, latch := some (realLatch s.cfg im az tb), acc := 0, last := 0, pd := 0, pdf := 0, integ := 0
          ftw := (realLatch s.cfg im az tb).ftw0, prev := false, idx := 0, nrec := 0, sat := 0, satFirst := 0 }) := by
  unfold execCdrfStart
  obtain ⟨im, az, tb, him, haz, htb, hc⟩ | ⟨-, hc⟩ | ⟨-, -, hc⟩ | ⟨-, -, -, hc⟩ := loopConfig_cases s.cfg <;> rw [hc]
  · exact .inr ⟨im, az, tb, him, haz, htb, rfl⟩
  all_goals exact .inl ⟨_, rfl⟩

/-- CDRX.START latches a complete configuration whose constants fit or raises BadConfig. -/
theorem fixedStart_cases (w : Option Nat) (s : State) :
    (∃ n, fixedStart w s = .next (raise .badConfig n s)) ∨
    ∃ im az tb, s.cfg.integMax = some im ∧ s.cfg.accSize = some az ∧ s.cfg.tbC = some tb ∧
      firstUnfit w (fixedLatch s.cfg im az tb) = none ∧
      fixedStart w s = done (s.setCdrx
        { run := true, prev := false, halt := false, idx := 0, nrec := 0, sat := 0, satFirst := 0, maxw := 0
          faultIdx := 0, faultStep := 0, acc := 0, last := 0, pd := 0, pdf := 0, integ := 0
          ftw := (fixedLatch s.cfg im az tb).ftw0, latch := some (fixedLatch s.cfg im az tb) }) := by
  unfold fixedStart
  obtain ⟨im, az, tb, him, haz, htb, hc⟩ | ⟨-, hc⟩ | ⟨-, -, hc⟩ | ⟨-, -, -, hc⟩ := loopConfig_cases s.cfg <;> rw [hc]
  · dsimp only
    split
    next j _ => exact .inl ⟨j, rfl⟩
    next hfit => exact .inr ⟨im, az, tb, him, haz, htb, hfit, rfl⟩
  all_goals exact .inl ⟨_, rfl⟩

/-- A sample of CDRF is refused, stops for want of constants, or advances the unit and then perhaps the chain. -/
theorem realCommand_cases (b : Bit) (s : State) :
    realCommand b s = .next (raise .notRunning 0 s) ∨
    (s.cdrf.run = true ∧ s.cdrf.latch = none ∧ realCommand b s = .fault (.latchUnwritten .real)) ∨
    ∃ k p g, s.cdrf.latch = some k ∧
      (g = .running (realAdvance k b s).1 ∨ g = forwardDem b (realAdvance k b s).1) ∧
      realCommand b s = finish p g := by
  unfold realCommand
  split
  next hrun =>
    cases hk : s.cdrf.latch with
    | none => exact .inr (.inl ⟨hrun, rfl, rfl⟩)
    | some k => exact .inr (.inr ⟨k, _, _, rfl, (ite_eq_or_eq _ _ _).symm, rfl⟩)
  next => exact .inl rfl

/-- A sample of CDRX is refused, stops for want of constants, overflows, or advances the unit and then perhaps the
chain. -/
theorem fixedCommand_cases (w : Option Nat) (b : Bit) (s : State) :
    fixedCommand w b s = .next (raise .notRunning 0 s) ∨
    (s.cdrx.run = true ∧ s.cdrx.latch = none ∧ fixedCommand w b s = .fault (.latchUnwritten .fixed)) ∨
    (∃ step, s.cdrx.run = true ∧ fixedCommand w b s = fixedFault step s) ∨
    ∃ k p g, s.cdrx.halt = false ∧ s.cdrx.latch = some k ∧ fixedOverflow w k b s.cdrx = none ∧
      (g = .running (fixedAdvance k b s).1 ∨ g = forwardDem b (fixedAdvance k b s).1) ∧
      fixedCommand w b s = finish p g := by
  unfold fixedCommand
  split
  next hrun =>
    simp only [Bool.and_eq_true, Bool.not_eq_true'] at hrun
    obtain ⟨hrun, hhalt⟩ := hrun
    cases hk : s.cdrx.latch with
    | none => exact .inr (.inl ⟨hrun, rfl, rfl⟩)
    | some k =>
      dsimp only [fixedStep]
      cases ho : fixedOverflow w k b s.cdrx with
      | some step => exact .inr (.inr (.inl ⟨step, hrun, rfl⟩))
      | none => exact .inr (.inr (.inr ⟨k, _, _, hhalt, rfl, ho, (ite_eq_or_eq _ _ _).symm, rfl⟩))
  next => exact .inl rfl

/-! ### The port logs -/

/-- What one record of the port logs holds is the beginning of what the other holds, port by port. -/
structure PortsGrow (p q : Ports) : Prop where
  code : p.code <+: q.code
  level : p.level <+: q.level
  amp : p.amp <+: q.amp
  recF : p.recF <+: q.recF
  recX : p.recX <+: q.recX
  demod : p.demod <+: q.demod
  byte : p.byte <+: q.byte

theorem PortsGrow.refl (p : Ports) : PortsGrow p p := by
  constructor <;> exact List.prefix_rfl

theorem PortsGrow.trans {p q r : Ports} (h : PortsGrow p q) (k : PortsGrow q r) : PortsGrow p r where
  code := h.code.trans k.code
  level := h.level.trans k.level
  amp := h.amp.trans k.amp
  recF := h.recF.trans k.recF
  recX := h.recX.trans k.recX
  demod := h.demod.trans k.demod
  byte := h.byte.trans k.byte

theorem sentCode_grows (s : State) (cs : List Bit) : PortsGrow s.ports (s.sentCode cs).ports := by
  constructor <;> simp [State.sentCode]

theorem sentData_grows (s : State) (ds : List Bit) : PortsGrow s.ports (s.sentData ds).ports :=
  sentCode_grows { s with enc := _ } _

theorem flushed_grows (s : State) : PortsGrow s.ports s.flushed.ports := by
  unfold State.flushed
  split
  · exact sentCode_grows { s with enc := _ } _
  · exact .refl _

theorem emitDemod_grows (s : State) (c : Bit) : PortsGrow s.ports (emitDemod c s).ports := by
  constructor <;> simp [emitDemod_eq]

theorem assembled_grows (s : State) (d : Bit) : PortsGrow s.ports (s.assembled d).ports := by
  unfold State.assembled
  dsimp only
  split
  · constructor <;> simp
  · exact .refl _

theorem foldl_assembled_grows (ds : List Bit) (s : State) :
    PortsGrow s.ports (ds.foldl State.assembled s).ports := by
  induction ds generalizing s with
  | nil => exact .refl _
  | cons d ds ih => exact (assembled_grows s d).trans (ih _)

theorem scnStep_grows (s : State) (c : Bit) (h : scnRunning s.scn = true) :
    PortsGrow s.ports (scnStep c s).state.ports := by
  obtain ⟨hscan | hpay, -⟩ := (scnRunning_iff _).mp h
  · rw [scnStep_scan s c hscan]
    exact .refl _
  · obtain ⟨ds, _, _, -, he⟩ | ⟨-, he⟩ := scnStep_payload_cases s c hpay <;> rw [he]
    · exact foldl_assembled_grows ds s
    · exact .refl _

theorem forwardScn_grows (s : State) (c : Bit) : PortsGrow s.ports (forwardScn c s).state.ports := by
  rw [forwardScn_eq]
  split
  case isTrue h => exact scnStep_grows s c h
  case isFalse => exact .refl _

theorem demStep_grows (s : State) (l : Bit) : PortsGrow s.ports (demStep l s).state.ports := by
  cases h : s.dem.haveSample with
  | false => rw [demStep_first s l h]; exact .refl _
  | true =>
    rw [demStep_later s l h]
    have emitted := emitDemod_grows s (s.dem.prev ^^ l)
    split
    · refine .trans ?_ (forwardScn_grows _ _)
      exact emitted
    · exact emitted

theorem forwardDem_grows (s : State) (b : Bit) : PortsGrow s.ports (forwardDem b s).state.ports := by
  rw [forwardDem_eq]
  split
  · exact demStep_grows s b
  · exact .refl _

theorem realAdvance_grows (k : CdrfLatch) (b : Bit) (s : State) :
    PortsGrow s.ports (realAdvance k b s).1.ports := by
  rw [realAdvance_state]
  dsimp only
  split
  · constructor <;> simp
  · exact .refl _

theorem fixedAdvance_grows (k : CdrxLatch) (b : Bit) (s : State) :
    PortsGrow s.ports (fixedAdvance k b s).1.ports := by
  rw [fixedAdvance_state]
  dsimp only
  split
  · constructor <;> simp
  · exact .refl _

theorem finish_grows {s : State} {p : Option Response} {g : Progress} {t : State}
    (hg : PortsGrow s.ports g.state.ports) (ht : finish p g = .next t) : PortsGrow s.ports t.ports := by
  obtain ⟨r, hr⟩ := finish_state p g
  cases hr.symm.trans ht
  exact hg

theorem execScnEnd_grows {s t : State} (ht : execScnEnd s = .next t) : PortsGrow s.ports t.ports := by
  unfold execScnEnd at ht
  split at ht
  · cases ht; exact .refl _
  · dsimp only at ht
    split at ht <;> cases ht <;> exact .refl _
  all_goals cases ht; exact .refl _

theorem realCommand_grows {s t : State} {b : Bit} (ht : realCommand b s = .next t) : PortsGrow s.ports t.ports := by
  obtain he | ⟨-, -, he⟩ | ⟨k, p, g, -, hg, he⟩ := realCommand_cases b s <;> rw [he] at ht
  · cases ht; exact .refl _
  · cases ht
  · have own := realAdvance_grows k b s
    obtain rfl | rfl := hg
    · exact finish_grows (g := .running _) own ht
    · exact finish_grows (own.trans (forwardDem_grows _ b)) ht

theorem fixedCommand_grows {w : Option Nat} {s t : State} {b : Bit} (ht : fixedCommand w b s = .next t) :
    PortsGrow s.ports t.ports := by
  obtain he | ⟨-, -, he⟩ | ⟨_, -, he⟩ | ⟨k, p, g, -, -, -, hg, he⟩ := fixedCommand_cases w b s <;> rw [he] at ht
  · cases ht; exact .refl _
  · cases ht
  · cases ht; exact .refl _
  · have own := fixedAdvance_grows k b s
    obtain rfl | rfl := hg
    · exact finish_grows (g := .running _) own ht
    · exact finish_grows (own.trans (forwardDem_grows _ b)) ht

/-- A command of any form only appends to the port logs. -/
theorem CommandForm.grows {s t : State} {o : StepOutcome} (h : CommandForm s o) (ht : o = .next t) :
    PortsGrow s.ports t.ports := by
  cases h with
  | nop | reset | clrstat | demStart | scnStart => cases ht; exact .refl _
  | encStart v tb => unfold execEncStart at ht; split at ht <;> cases ht <;> exact .refl _
  | encData ds =>
    rw [encCommand_eq] at ht
    split at ht <;> cases ht
    · exact sentData_grows s ds
    · exact .refl _
  | encCode cs =>
    rw [encCommand_eq] at ht
    split at ht <;> cases ht
    · exact (flushed_grows s).trans (sentCode_grows _ cs)
    · exact .refl _
  | demLevel l =>
    unfold execDemLevel at ht
    split at ht
    · exact finish_grows (demStep_grows s l) ht
    · cases ht; exact .refl _
  | scnBit c =>
    unfold execScnBit at ht
    split at ht
    next hr => exact finish_grows (scnStep_grows s c hr) ht
    next => cases ht; exact .refl _
  | scnEnd => exact execScnEnd_grows ht
  | cdrfStart =>
    obtain ⟨_, he⟩ | ⟨_, _, _, -, -, -, he⟩ := execCdrfStart_cases s <;> cases he.symm.trans ht <;> exact .refl _
  | cdrfLevel b => exact realCommand_grows ht
  | cdrxStart =>
    obtain ⟨_, he⟩ | ⟨_, _, _, -, -, -, -, he⟩ := fixedStart_cases Config.fxWidthPred s <;> cases he.symm.trans ht <;>
      exact .refl _
  | cdrxLevel b => exact fixedCommand_grows ht
  | write op legal cfg _ => rw [writeReg_eq] at ht; split at ht <;> cases ht <;> exact .refl _
  | read idx v => cases v <;> cases ht <;> exact .refl _

/-- Settles O56: every command has one of the forms, and each form only appends. -/
theorem portsOnlyGrow : Obligations.PortsOnlyGrow := fun i s _ ht =>
  have h := (exec_form i s).grows ht
  ⟨h.code, h.level, h.amp, h.recF, h.recX, h.demod, h.byte⟩

/-! ### Good units -/

/-- The units of the state after reset are good (spec/70_reset_and_hazards.md R225). -/
theorem inv_reset : Inv State.reset where
  cfg := ⟨by decide, by decide, by decide, nofun, nofun, nofun, by decide, by decide⟩
  status := by decide
  enc := ⟨by decide, by decide, by decide⟩
  scn := ⟨by decide, by decide, by decide, by decide, by decide, by decide, by decide⟩
  cdrf := ⟨rfl, nofun, nofun, nofun, nofun, le_rfl, le_rfl⟩
  cdrx := ⟨rfl, nofun, nofun, nofun, nofun, nofun, ⟨fitsIn_zero _, fitsIn_zero _, fitsIn_zero _, fitsIn_zero _⟩,
    le_rfl, le_rfl, nofun, ⟨⟨fun _ => rfl, fun _ => rfl⟩, nofun⟩⟩

/-! ### ENC -/

/-- The line encoders that are not in use keep their state (spec/10_state.md R20). -/
theorem leRun_unused (v : Scheme) (st : LineState) (ds : List Bit) :
    (v ≠ .mfm → (leRun v st ds).1.prev = st.prev) ∧ (v ≠ .rll27 → (leRun v st ds).1.rll = st.rll) := by
  induction ds generalizing st with
  | nil => exact ⟨fun _ => rfl, fun _ => rfl⟩
  | cons d ds ih =>
    have oneprev (h : v ≠ .mfm) : (leStep v st d).1.prev = st.prev := by cases v <;> simp_all [leStep]
    have onerll (h : v ≠ .rll27) : (leStep v st d).1.rll = st.rll := by cases v <;> simp_all [leStep]
    obtain ⟨hprev, hrll⟩ := ih (leStep v st d).1
    exact ⟨fun h => (hprev h).trans (oneprev h), fun h => (hrll h).trans (onerll h)⟩

theorem encoded_good {u : EncUnit} (h : EncGood u) (ds : List Bit) :
    let r := (leRun u.scheme ⟨u.mfmPrev, u.rllState⟩ ds).1
    EncGood { u with mfmPrev := r.prev, rllState := r.rll, dcnt := u.dcnt + ds.length } := by
  obtain ⟨hprev, hrll⟩ := leRun_unused u.scheme ⟨u.mfmPrev, u.rllState⟩ ds
  exact ⟨h.tb, fun hs => (hprev hs).trans (h.mfmPrev hs), fun hs => (hrll hs).trans (h.rllState hs)⟩

/-! ### Fields no good state speaks of -/

theorem Inv.setResponse {s : State} (h : Inv s) (r : Option Response) : Inv (s.setResponse r) :=
  ⟨h.cfg, h.status, h.enc, h.scn, h.cdrf, h.cdrx⟩

theorem Inv.setPorts {s : State} (h : Inv s) (p : Ports) : Inv (s.setPorts p) :=
  ⟨h.cfg, h.status, h.enc, h.scn, h.cdrf, h.cdrx⟩

theorem Inv.setDem {s : State} (h : Inv s) (u : DemUnit) : Inv (s.setDem u) :=
  ⟨h.cfg, h.status, h.enc, h.scn, h.cdrf, h.cdrx⟩

theorem Inv.setInbox {s : State} (h : Inv s) (cws : List CmdWord) : Inv (s.setInbox cws) :=
  ⟨h.cfg, h.status, h.enc, h.scn, h.cdrf, h.cdrx⟩

/-! ### One unit replaced -/

theorem Inv.setCfg {s : State} (h : Inv s) {c : CfgRegs} (hc : CfgLegal c) : Inv (s.setCfg c) := { h with cfg := hc }

theorem Inv.setStatus {s : State} (h : Inv s) {v : BitVec 64} (hv : v.toNat < 2 ^ 11) : Inv (s.setStatus v) :=
  { h with status := hv }

theorem Inv.setEnc {s : State} (h : Inv s) {u : EncUnit} (hu : EncGood u) : Inv (s.setEnc u) := { h with enc := hu }

theorem Inv.setScn {s : State} (h : Inv s) {u : ScnUnit} (hu : ScnGood u) : Inv (s.setScn u) := { h with scn := hu }

theorem Inv.setCdrf {s : State} (h : Inv s) {u : CdrfUnit} (hu : CdrfGood u) : Inv (s.setCdrf u) :=
  { h with cdrf := hu }

theorem Inv.setCdrx {s : State} (h : Inv s) {u : CdrxUnit} (hu : CdrxGood u) : Inv (s.setCdrx u) :=
  { h with cdrx := hu }

theorem Inv.setFlag {s : State} (h : Inv s) (f : Flag) : Inv (setFlag f s) :=
  h.setStatus (withFlag_lt f s.status h.status)

theorem Inv.raise {s : State} (h : Inv s) (e : Event) (info : Nat) : Inv (raise e info s) :=
  (h.setFlag e.flag).setResponse _

/-! ### Bits sent by ENC -/

theorem Inv.sentCode {s : State} (h : Inv s) (cs : List Bit) : Inv (s.sentCode cs) :=
  ⟨h.cfg, h.status, ⟨h.enc.tb, h.enc.mfmPrev, h.enc.rllState⟩, h.scn, h.cdrf, h.cdrx⟩

theorem Inv.sentData {s : State} (h : Inv s) (ds : List Bit) : Inv (s.sentData ds) :=
  (h.setEnc (encoded_good h.enc ds)).sentCode _

theorem Inv.flushed {s : State} (h : Inv s) : Inv s.flushed := by
  unfold State.flushed
  split
  · exact (h.setEnc (u := { s.enc with rllState := .idle }) ⟨h.enc.tb, h.enc.mfmPrev, fun _ => rfl⟩).sentCode _
  · exact h

/-! ### SCN -/

theorem shiftIn_lt (sr : BitVec 64) (c : Bit) (len : Nat) (h : len ≤ 64) : (shiftIn sr c len).toNat < 2 ^ len := by
  have hlt : (2 * sr.toNat + c.toNat) % 2 ^ len < 2 ^ len := Nat.mod_lt _ (by positivity)
  have hle : 2 ^ len ≤ 2 ^ 64 := Nat.pow_le_pow_right (by decide) h
  rw [shiftIn, BitVec.toNat_ofNat, Nat.mod_eq_of_lt (hlt.trans_le hle)]
  exact hlt

theorem scanBit_good {u : ScnUnit} (h : ScnGood u) (hp : u.phase = .scan) (c : Bit) : ScnGood (scanBit c u) := by
  have hnot : u.found = false := h.notFoundBefore (.inr hp)
  have hsr := shiftIn_lt u.sr c u.l.toNat h.markerLen.2
  have hhalt (hh : u.halt = true) : u.dscheme = .rll27 := (h.halted hh).1
  unfold scanBit
  dsimp only
  split
  · exact ⟨h.markerLen, hsr, h.clen, fun _ => rfl, nofun, nofun, fun hh => ⟨hhalt hh, rfl⟩⟩
  · exact ⟨h.markerLen, hsr, h.clen, fun hp' => absurd (hp.symm.trans hp') nofun, fun _ => hnot, h.noPosition, h.halted⟩

/-- A code bit in the payload keeps everything a good scanner is about but the count of collected bits. -/
theorem decoded_scnGood {s : State} (h : ScnGood s.scn) (hp : s.scn.phase = .payload) (ds : List Bit) (cbuf : BitVec 8)
    {clen : BitVec 4} (hl : clen.toNat ≤ 7) : ScnGood (countCodeBit (s.decoded ds cbuf clen)).scn := by
  have hf : s.scn.found = true := h.foundPayload hp
  simp only [countCodeBit, State.decoded, State.setScn_scn]
  rw [foldl_assembled_scn]
  refine ⟨h.markerLen, h.shiftReg, hl, h.foundPayload, h.notFoundBefore, fun hn => ?_, h.halted⟩
  exact absurd (hf.symm.trans hn) nofun

theorem halted_scnGood {u : ScnUnit} (h : ScnGood u) (hp : u.phase = .payload) (hs : u.dscheme = .rll27) :
    ScnGood { u with halt := true, evidx := u.idx } :=
  { h with halted := fun _ => ⟨hs, h.foundPayload hp⟩ }

theorem foldl_assembled_inv {s : State} (h : Inv s) (ds : List Bit) {u : ScnUnit} (hu : ScnGood u) :
    Inv ((ds.foldl State.assembled s).setScn u) := by
  obtain ⟨hcfg, henc, -, hcdrf, hcdrx, -, hstatus⟩ := foldl_assembled_frame ds s
  exact ⟨hcfg ▸ h.cfg, hstatus ▸ h.status, henc ▸ h.enc, hu, hcdrf ▸ h.cdrf, hcdrx ▸ h.cdrx⟩

theorem scnStep_inv {s : State} (h : Inv s) (hr : scnRunning s.scn = true) (c : Bit) : Inv (scnStep c s).state := by
  obtain ⟨hscan | hpay, -⟩ := (scnRunning_iff _).mp hr
  · rw [scnStep_scan s c hscan]
    exact h.setScn (scanBit_good h.scn hscan c)
  · obtain ⟨ds, cbuf, clen, hl, he⟩ | ⟨hs, he⟩ := scnStep_payload_cases s c hpay <;> rw [he]
    · exact foldl_assembled_inv h ds (decoded_scnGood h.scn hpay ds cbuf (hl h.scn.clen))
    · exact (h.setScn (halted_scnGood h.scn hpay hs)).raise _ _

theorem execScnStart_good (c : CfgRegs) (h : CfgLegal c) (v : Scheme) : ScnGood
    { phase := .scan, dscheme := v, m := c.marker, l := c.markerLen, sr := 0, idx := 0, found := false
      pos := 0, halt := false, payIdx := 0, shift := 0, cnt := 0, nbytes := 0, cbuf := 0, clen := 0
      discard := 0, dangle := 0, evidx := 0 } :=
  ⟨h.markerLen, by simp, by simp, nofun, fun _ => rfl, fun _ => ⟨rfl, rfl, rfl, rfl, rfl⟩, nofun⟩

/-- A good scanner stays good when it is done, whatever the three registers of the end of the stream hold. -/
theorem done_scnGood {u : ScnUnit} (h : ScnGood u) (discard : BitVec 3) (dangle : BitVec 4) (evidx : Nat) :
    ScnGood { u with discard := discard, dangle := dangle, evidx := evidx, phase := .done } :=
  { h with foundPayload := nofun, notFoundBefore := nofun }

/-! ### CDRF -/

theorem value_nonneg {r : RatReg} (h : 0 ≤ r.num.toInt) : 0 ≤ r.value :=
  div_nonneg (by exact_mod_cast h) (by positivity)

theorem toNat_pos {v : BitVec 32} (h : v ≠ 0) : 1 ≤ v.toNat :=
  Nat.one_le_iff_ne_zero.mpr fun h0 => h (BitVec.eq_of_toNat_eq h0)

theorem realLatch_good {c : CfgRegs} (h : CfgLegal c) {im : RatReg} {az tb : BitVec 32} (him : c.integMax = some im)
    (haz : c.accSize = some az) : 1 ≤ (realLatch c im az tb).accsz ∧ 0 ≤ (realLatch c im az tb).imax :=
  ⟨toNat_pos (h.accSize az haz), value_nonneg (h.integMax im him).2⟩

theorem started_cdrfGood {k : CdrfLatch} (haccsz : 1 ≤ k.accsz) (himax : 0 ≤ k.imax) : CdrfGood
    { run := true, latch := some k, acc := 0, last := 0, pd := 0, pdf := 0, integ := 0, ftw := k.ftw0, prev := false
      idx := 0, nrec := 0, sat := 0, satFirst := 0 } := by
  refine ⟨rfl, ?_, ?_, ?_, ?_, le_rfl, le_rfl⟩ <;> rintro _ ⟨⟩
  · exact haccsz
  · exact himax
  · exact ⟨le_rfl, by simpa using Nat.lt_of_succ_le haccsz⟩
  · exact ⟨neg_nonpos.mpr himax, himax⟩

theorem realSample_good {k : CdrfLatch} {u : CdrfUnit} (h : CdrfGood u) (hk : u.latch = some k) (b : Bit) :
    CdrfGood (realSample k b u) := by
  have only (k' : CdrfLatch) (hk' : (realSample k b u).latch = some k') : k' = k :=
    Option.some.inj (hk'.symm.trans hk)
  refine ⟨h.latched, h.accsz, h.imax, fun k' hk' => ?_, fun k' hk' => ?_, ?_, ?_⟩
  · obtain rfl := only k' hk'
    have hpos : (0 : Rat) < (k'.accsz : Rat) := by exact_mod_cast h.accsz k' hk
    exact ratMod_bounds _ _ hpos
  · obtain rfl := only k' hk'
    exact clampRat_bounds _ _ (h.imax k' hk)
  · have := h.nrec
    simp only [realSample]; split <;> omega
  · have := h.sat
    simp only [realSample]; split <;> omega

theorem realAdvance_inv {s : State} (h : Inv s) {k : CdrfLatch} (hk : s.cdrf.latch = some k) (b : Bit) :
    Inv (realAdvance k b s).1 := by
  rw [realAdvance_state]
  refine ⟨h.cfg, ?_, h.enc, h.scn, realSample_good h.cdrf hk b, h.cdrx⟩
  dsimp only
  split
  · exact withFlag_lt _ _ h.status
  · exact h.status

/-! ### CDRX -/

theorem quantise_nonneg {r : RatReg} (h : 0 ≤ r.num.toInt) : 0 ≤ quantise r :=
  Int.ediv_nonneg (Int.mul_nonneg h fxOne_pos.le) (by positivity)

theorem fixedLatch_good {c : CfgRegs} (h : CfgLegal c) {im : RatReg} {az tb : BitVec 32} (him : c.integMax = some im)
    (haz : c.accSize = some az) :
    1 ≤ (fixedLatch c im az tb).accsz ∧ (fixedLatch c im az tb).accsz % fxOne = 0 ∧
      0 ≤ (fixedLatch c im az tb).imax := by
  have hpos : (0 : Int) < az.toNat := by exact_mod_cast toNat_pos (h.accSize az haz)
  exact ⟨Int.mul_pos hpos fxOne_pos, Int.mul_emod_left _ _, quantise_nonneg (h.integMax im him).2⟩

theorem started_cdrxGood {k : CdrxLatch} (hfit : firstUnfit Config.fxWidthPred k = none) (haccsz : 1 ≤ k.accsz)
    (hwhole : k.accsz % fxOne = 0) (himax : 0 ≤ k.imax) : CdrxGood
    { run := true, prev := false, halt := false, idx := 0, nrec := 0, sat := 0, satFirst := 0, maxw := 0
      faultIdx := 0, faultStep := 0, acc := 0, last := 0, pd := 0, pdf := 0, integ := 0, ftw := k.ftw0
      latch := some k } := by
  obtain ⟨-, -, -, -, -, hftw⟩ := firstUnfit_none _ _ hfit
  refine ⟨rfl, ?_, ?_, ?_, ?_, ?_, ⟨fitsIn_zero _, fitsIn_zero _, fitsIn_zero _, hftw⟩, le_rfl, le_rfl, nofun,
    ⟨⟨fun _ => rfl, fun _ => rfl⟩, nofun⟩⟩ <;> rintro _ ⟨⟩
  · exact hfit
  · exact ⟨haccsz, hwhole⟩
  · exact himax
  · exact ⟨le_rfl, haccsz⟩
  · exact ⟨neg_nonpos.mpr himax, himax⟩

/-- The phase error fits: it is held, or it is between `-X_ACCSZ` and `X_ACCSZ` (spec/44_cdr_fixed.md R171). -/
theorem fixedPd_fits {k : CdrxLatch} {u : CdrxUnit} (h : CdrxGood u) (hk : u.latch = some k) (b : Bit) :
    fits (fixedPd k b u) = true := by
  obtain ⟨-, -, -, -, haccsz, -⟩ := firstUnfit_none _ k (h.constants k hk)
  obtain ⟨h0, hlt⟩ := h.acc k hk
  have hneg := fitsIn_neg _ _ (h0.trans hlt.le) haccsz
  unfold fixedPd
  split
  · exact fitsIn_between _ _ _ _ hneg haccsz (by omega) (by omega)
  · exact h.fitting.1

theorem fixedInteg_fits {k : CdrxLatch} {u : CdrxUnit} (h : CdrxGood u) (hk : u.latch = some k) (b : Bit) :
    fits (fixedInteg k b u) = true := by
  obtain ⟨-, -, -, himax, -, -⟩ := firstUnfit_none _ k (h.constants k hk)
  obtain ⟨hlo, hhi⟩ := clampInt_bounds (fixedSum k b u) k.imax (h.imax k hk)
  exact fitsIn_between _ _ _ _ (fitsIn_neg _ _ (h.imax k hk) himax) himax hlo hhi

/-- A committed sample keeps a unit that is not halted good. -/
theorem fixedSample_good {k : CdrxLatch} {u : CdrxUnit} (h : CdrxGood u) (hk : u.latch = some k) (hh : u.halt = false)
    (b : Bit) (ho : fixedOverflow Config.fxWidthPred k b u = none) : CdrxGood (fixedSample k b u) := by
  obtain ⟨hpdf, -, hftw, -⟩ := fixedOverflow_none _ k b u ho
  have only (k' : CdrxLatch) (hk' : (fixedSample k b u).latch = some k') : k' = k :=
    Option.some.inj (hk'.symm.trans hk)
  have hw : widthS (fixedPdf k b u) ≤ max u.maxw (widthS (fixedPdf k b u)) := le_max_right _ _
  have hpos := widthS_pos (fixedPdf k b u)
  refine ⟨h.latched, h.constants, h.accsz, h.imax, fun k' hk' => ?_, fun k' hk' => ?_,
    ⟨fixedPd_fits h hk b, hpdf, fixedInteg_fits h hk b, hftw⟩, ?_, ?_, fun hh' => ?_, ⟨⟨fun h0 => ?_, nofun⟩, fun _ => hw⟩⟩
  · obtain rfl := only k' hk'
    have haccsz : 0 < k'.accsz := (h.accsz k' hk).1
    exact ⟨Int.emod_nonneg _ haccsz.ne', Int.emod_lt_of_pos _ haccsz⟩
  · obtain rfl := only k' hk'
    exact clampInt_bounds _ _ (h.imax k' hk)
  · have := h.nrec
    simp only [fixedSample]; split <;> omega
  · have := h.sat
    simp only [fixedSample]; split <;> omega
  · exact absurd (hh.symm.trans hh') nofun
  · exact absurd (hw.trans h0.le) (by omega)

theorem fixedAdvance_inv {s : State} (h : Inv s) {k : CdrxLatch} (hk : s.cdrx.latch = some k)
    (hh : s.cdrx.halt = false) {b : Bit} (ho : fixedOverflow Config.fxWidthPred k b s.cdrx = none) :
    Inv (fixedAdvance k b s).1 := by
  rw [fixedAdvance_state]
  refine ⟨h.cfg, ?_, h.enc, h.scn, h.cdrf, fixedSample_good h.cdrx hk hh b ho⟩
  dsimp only
  split
  · exact withFlag_lt _ _ h.status
  · exact h.status

theorem overflowed_good {u : CdrxUnit} (h : CdrxGood u) (hr : u.run = true) (step : BitVec 3) :
    CdrxGood { u with halt := true, faultIdx := u.idx, faultStep := step } :=
  { h with halted := fun _ => ⟨hr, rfl⟩ }

/-! ### The chain -/

theorem forwardScn_inv {s : State} (h : Inv s) (c : Bit) : Inv (forwardScn c s).state := by
  rw [forwardScn_eq]
  split
  next hr => exact scnStep_inv h hr c
  next => exact h.setFlag .drop

theorem demStep_inv {s : State} (h : Inv s) (l : Bit) : Inv (demStep l s).state := by
  cases hs : s.dem.haveSample with
  | false => rw [demStep_first s l hs]; exact h.setDem _
  | true =>
    rw [demStep_later s l hs]
    have emitted := (h.setDem { s.dem with prev := l, haveSample := true, cnt := s.dem.cnt + 1 }).setPorts
      { s.ports with demod := s.ports.demod ++ [s.dem.prev ^^ l] }
    split
    · exact forwardScn_inv emitted _
    · exact emitted

theorem forwardDem_inv {s : State} (h : Inv s) (b : Bit) : Inv (forwardDem b s).state := by
  rw [forwardDem_eq]
  split
  · exact demStep_inv h b
  · exact h.setFlag .drop

/-! ### Commands, steps and runs -/

/-- The outcome is a next state, and a good one. -/
def GoodOutcome (o : StepOutcome) : Prop := ∃ t, o = .next t ∧ Inv t

theorem Inv.done {s : State} (h : Inv s) : GoodOutcome (done s) := ⟨_, rfl, h.setResponse _⟩

theorem Inv.raised {s : State} (h : Inv s) (e : Event) (info : Nat) : GoodOutcome (raised e info s) :=
  ⟨_, rfl, h.raise e info⟩

theorem finish_good {p : Option Response} {g : Progress} (h : Inv g.state) : GoodOutcome (finish p g) := by
  obtain ⟨r, hr⟩ := finish_state p g
  exact ⟨_, hr, h.setResponse r⟩

theorem execScnEnd_good {s : State} (h : Inv s) : GoodOutcome (execScnEnd s) := by
  unfold execScnEnd
  split
  · exact (h.setScn (done_scnGood h.scn _ _ _)).raised _ _
  · dsimp only
    split
    · exact (h.setScn (done_scnGood h.scn _ _ _)).done
    · exact (h.setScn (done_scnGood h.scn _ _ _)).raised _ _
  all_goals exact h.raised _ _

theorem execCdrfStart_good {s : State} (h : Inv s) : GoodOutcome (execCdrfStart s) := by
  obtain ⟨n, he⟩ | ⟨im, az, tb, him, haz, -, he⟩ := execCdrfStart_cases s <;> rw [he]
  · exact h.raised _ n
  · obtain ⟨haccsz, himax⟩ := realLatch_good (tb := tb) h.cfg him haz
    exact (h.setCdrf (started_cdrfGood haccsz himax)).done

theorem fixedStart_good {s : State} (h : Inv s) : GoodOutcome (fixedStart Config.fxWidthPred s) := by
  obtain ⟨n, he⟩ | ⟨im, az, tb, him, haz, -, hfit, he⟩ := fixedStart_cases Config.fxWidthPred s <;> rw [he]
  · exact h.raised _ n
  · obtain ⟨haccsz, hwhole, himax⟩ := fixedLatch_good (tb := tb) h.cfg him haz
    exact (h.setCdrx (started_cdrxGood hfit haccsz hwhole himax)).done

theorem realCommand_good {s : State} (h : Inv s) (b : Bit) : GoodOutcome (realCommand b s) := by
  obtain he | ⟨hr, hn, -⟩ | ⟨k, p, g, hk, hg, he⟩ := realCommand_cases b s
  · exact ⟨_, he, h.raise _ _⟩
  · have latched := h.cdrf.latched
    rw [hn, hr] at latched
    cases latched
  · rw [he]
    have own := realAdvance_inv h hk b
    obtain rfl | rfl := hg
    · exact finish_good own
    · exact finish_good (forwardDem_inv own b)

theorem fixedCommand_good {s : State} (h : Inv s) (b : Bit) :
    GoodOutcome (fixedCommand Config.fxWidthPred b s) := by
  obtain he | ⟨hr, hn, -⟩ | ⟨step, hr, he⟩ | ⟨k, p, g, hh, hk, ho, hg, he⟩ := fixedCommand_cases Config.fxWidthPred b s
  · exact ⟨_, he, h.raise _ _⟩
  · have latched := h.cdrx.latched
    rw [hn, hr] at latched
    cases latched
  · rw [he]
    exact (h.setCdrx (overflowed_good h.cdrx hr step)).raised _ _
  · rw [he]
    have own := fixedAdvance_inv h hk hh ho
    obtain rfl | rfl := hg
    · exact finish_good own
    · exact finish_good (forwardDem_inv own b)

/-- A command of any form takes a good state to a good state. -/
theorem CommandForm.good {s : State} {o : StepOutcome} (hf : CommandForm s o) (h : Inv s) : GoodOutcome o := by
  cases hf with
  | nop => exact h.done
  | reset => exact ((inv_reset.setPorts _).setInbox _).done
  | clrstat mask => exact (h.setStatus (clearFlags_lt mask s.status h.status)).done
  | encStart v tb =>
    unfold execEncStart
    split
    next hl => exact (h.setEnc ⟨legalNonzero_ne hl, fun _ => rfl, fun _ => rfl⟩).done
    next => exact h.raised _ _
  | encData ds =>
    unfold encCommand
    split
    · exact (h.sentData ds).done
    · exact h.raised _ _
  | encCode cs =>
    unfold encCommand
    split
    · exact (h.flushed.sentCode cs).done
    · exact h.raised _ _
  | demStart => exact (h.setDem _).done
  | demLevel l =>
    unfold execDemLevel
    split
    · exact finish_good (demStep_inv h l)
    · exact h.raised _ _
  | scnStart v => exact (h.setScn (execScnStart_good s.cfg h.cfg v)).done
  | scnBit c =>
    unfold execScnBit
    split
    next hr => exact finish_good (scnStep_inv h hr c)
    next => exact h.raised _ _
  | scnEnd => exact execScnEnd_good h
  | cdrfStart => exact execCdrfStart_good h
  | cdrfLevel b => exact realCommand_good h b
  | cdrxStart => exact fixedStart_good h
  | cdrxLevel b => exact fixedCommand_good h b
  | write op legal cfg hc =>
    unfold writeReg
    split
    next hl => exact (h.setCfg (hc hl h.cfg)).done
    next => exact h.raised _ _
  | read idx v =>
    cases v with
    | none => exact h.raised _ _
    | some v => exact ⟨_, rfl, h.setResponse _⟩

/-- A step from a good state stops nowhere and leaves a good state, whatever word the host has issued. -/
theorem step_good {s : State} (h : Inv s) : GoodOutcome (step s) := by
  cases hi : s.inbox with
  | nil => exact ⟨s, step_nil s hi, h⟩
  | cons cw rest =>
    have accepted : Inv { s with inbox := rest } := h.setInbox rest
    cases hd : decode cw with
    | error e => exact ⟨_, step_of_decode_error hi hd, accepted.raise _ _⟩
    | ok i =>
      rw [step_of_decode_ok hi hd]
      exact (exec_form i _).good accepted

theorem run_succ {s t : State} (h : step s = .next t) (k : Nat) :
    Host.Core.run core (k + 1) s = Host.Core.run core k t := by
  have hc : core.step s = .next t := h
  simp only [Host.Core.run]
  rw [hc]

/-- A run from a good state is safe, by induction on its length. -/
theorem safeRun_of_inv (k : Nat) {s : State} (h : Inv s) : SafeRun k s := by
  induction k generalizing s with
  | zero => exact ⟨s, rfl, h⟩
  | succ k ih =>
    obtain ⟨t, ht, good⟩ := step_good h
    obtain ⟨u, hu, last⟩ := ih good
    exact ⟨u, (run_succ ht k).trans hu, last⟩

/-- Settles O60: a good state is good whatever words wait, and every step keeps it good. -/
theorem everyRunIsSafe : Obligations.EveryRunIsSafe := fun k _ cws h => safeRun_of_inv k (h.setInbox cws)

end Sys2Proof.Machine
end

section
/-! PROOFS. The family of spec/10_state.md: good states step to good states, what steers a command and what does not,
which unit a command can change, the forwarding chain, and what `RD` answers. -/

namespace Sys2Proof.Machine

/-- Settles O58: the step lemma of the runs, said of one step. -/
theorem goodStatesStepToGoodStates : Obligations.GoodStatesStepToGoodStates := fun _ h => step_good h

/-! ### A state in disguise

The chain reads `CHAIN` and its own units, and it only sets flags. So a step of it that begins in the same state but for
another configuration with the same `CHAIN`, another `STATUS` and another response does the same, and the bits it sets
in `STATUS` are the same. -/

/-- The state with another configuration, another `STATUS` and another response. -/
def State.disguised (s : State) (c : CfgRegs) (v : BitVec 64) (r : Option Response) : State :=
  { s with cfg := c, status := v, response := r }

/-- The same of a command's pseudocode; the response of a `raise` that ended it stands. -/
def Progress.disguised (c : CfgRegs) (v : BitVec 64) (r : Option Response) : Progress → Progress
  | .running t => .running (t.disguised c v r)
  | .ended t => .ended (t.disguised c v t.response)

section
variable (s : State) (c : CfgRegs) (v : BitVec 64) (r : Option Response)

@[simp] theorem State.disguised_cfg : (s.disguised c v r).cfg = c := rfl
@[simp] theorem State.disguised_status : (s.disguised c v r).status = v := rfl
@[simp] theorem State.disguised_dem : (s.disguised c v r).dem = s.dem := rfl
@[simp] theorem State.disguised_scn : (s.disguised c v r).scn = s.scn := rfl
@[simp] theorem State.disguised_cdrf : (s.disguised c v r).cdrf = s.cdrf := rfl
@[simp] theorem State.disguised_cdrx : (s.disguised c v r).cdrx = s.cdrx := rfl
@[simp] theorem State.disguised_self : s.disguised s.cfg s.status s.response = s := rfl

theorem assembled_disguised (d : Bit) : (s.disguised c v r).assembled d = (s.assembled d).disguised c v r := by
  unfold State.assembled State.disguised
  dsimp only
  split <;> rfl

end

theorem foldl_assembled_disguised (ds : List Bit) (s : State) (c : CfgRegs) (v : BitVec 64) (r : Option Response) :
    ds.foldl State.assembled (s.disguised c v r) = (ds.foldl State.assembled s).disguised c v r := by
  induction ds generalizing s with
  | nil => rfl
  | cons d ds ih => rw [List.foldl_cons, assembled_disguised, ih]; rfl

theorem dataBits_disguised (ds : List Bit) (s : State) (c : CfgRegs) (v : BitVec 64) (r : Option Response) :
    dataBits ds (s.disguised c v r) = (dataBits ds s).disguised c v r := by
  simp only [dataBits_eq, foldl_assembled_disguised]

/-- What the step does, started in `s`, does not depend on the disguise; it sets the bits `m` of `STATUS`. -/
def BlindStep (f : State → Progress) (s : State) : Prop :=
  ∃ m, ∀ c v r, c.chain = s.cfg.chain → f (s.disguised c v r) = (f s).disguised c (v ||| m) r

/-- A step that sets no flag. -/
theorem BlindStep.of_flagless {f : State → Progress} {s : State}
    (h : ∀ c v r, f (s.disguised c v r) = (f s).disguised c v r) : BlindStep f s :=
  ⟨0#64, fun c v r _ => (h c v r).trans (by rw [BitVec.or_zero])⟩

/-- An RLL27 code bit sets CODEV when it violates the code, and nothing otherwise (spec/42_sync_frame.md R125). -/
theorem rllDecode_blind (b : Bit) (s : State) : BlindStep (rllDecode b) s := by
  cases hp : rllPattern (collectedBits s.scn ++ [b]) with
  | some pat =>
    exact .of_flagless fun c v r => by simp only [rllDecode, State.disguised_scn, hp, dataBits_disguised]; rfl
  | none =>
    cases hx : isRllPrefix (collectedBits s.scn ++ [b]) with
    | true => exact .of_flagless fun c v r => by simp only [rllDecode, State.disguised_scn, hp, hx]; rfl
    | false => exact ⟨_, fun c v r _ => by simp only [rllDecode, State.disguised_scn, hp, hx]; rfl⟩

theorem payStep_blind (b : Bit) (s : State) : BlindStep (payStep b) s := by
  have data (ds : List Bit) (c v r) : countPayload (dataBits ds (s.disguised c v r)) =
      (countPayload (dataBits ds s)).disguised c v r := by rw [dataBits_disguised]; rfl
  cases hs : s.scn.dscheme with
  | fm | mfm =>
    refine .of_flagless fun c v r => ?_
    by_cases hodd : s.scn.payIdx % 2 = 1 <;> simp only [payStep, State.disguised_scn, hs, hodd, ↓reduceIte]
    · exact congrArg Progress.running (data [b] c v r)
    · rfl
  | direct =>
    refine .of_flagless fun c v r => ?_
    simp only [payStep, State.disguised_scn, hs]
    exact congrArg Progress.running (data [b] c v r)
  | rll27 =>
    obtain ⟨m, hm⟩ := rllDecode_blind b s
    refine ⟨m, fun c v r hc => ?_⟩
    simp only [payStep, State.disguised_scn, hs, hm c v r hc]
    cases rllDecode b s <;> rfl

theorem scnStep_blind (b : Bit) (s : State) : BlindStep (scnStep b) s := by
  by_cases hp : s.scn.phase = .scan
  · refine .of_flagless fun c v r => ?_
    rw [scnStep_scan s b hp, scnStep_scan (s.disguised c v r) b hp]; rfl
  · obtain ⟨m, hm⟩ := payStep_blind b s
    refine ⟨m, fun c v r hc => ?_⟩
    simp only [scnStep, State.disguised_scn, if_neg hp, hm c v r hc]
    cases payStep b s <;> rfl

theorem forwardScn_blind (b : Bit) (s : State) : BlindStep (forwardScn b) s := by
  by_cases hr : scnRunning s.scn = true
  · obtain ⟨m, hm⟩ := scnStep_blind b s
    refine ⟨m, fun c v r hc => ?_⟩
    simp only [forwardScn_eq, State.disguised_scn, hr, if_true, hm c v r hc]
  · exact ⟨BitVec.twoPow 64 Flag.drop.bit, fun c v r _ => by
      simp only [forwardScn_eq, State.disguised_scn, hr]; rfl⟩

theorem demStep_blind (b : Bit) (s : State) : BlindStep (demStep b) s := by
  cases hs : s.dem.haveSample with
  | false =>
    refine .of_flagless fun c v r => ?_
    rw [demStep_first s b hs, demStep_first (s.disguised c v r) b hs]; rfl
  | true =>
    obtain ⟨m, hm⟩ := forwardScn_blind (s.dem.prev ^^ b) (emitDemod (s.dem.prev ^^ b)
      (s.setDem { s.dem with prev := b, haveSample := true, cnt := s.dem.cnt + 1 }))
    by_cases hl : chainsScn s.cfg = true
    · refine ⟨m, fun c v r hc => ?_⟩
      have hl' : chainsScn c = true := by rwa [chainsScn, hc]
      rw [demStep_later s b hs, demStep_later (s.disguised c v r) b hs, State.disguised_cfg, if_pos hl, if_pos hl']
      exact hm c v r hc
    · refine ⟨0#64, fun c v r hc => ?_⟩
      have hl' : ¬chainsScn c = true := by rwa [chainsScn, hc]
      rw [demStep_later s b hs, demStep_later (s.disguised c v r) b hs, State.disguised_cfg, if_neg hl, if_neg hl',
        BitVec.or_zero]; rfl

theorem forwardDem_blind (b : Bit) (s : State) : BlindStep (forwardDem b) s := by
  cases hr : s.dem.run with
  | true =>
    obtain ⟨m, hm⟩ := demStep_blind b s
    refine ⟨m, fun c v r hc => ?_⟩
    simp only [forwardDem_eq, State.disguised_dem, hr, ↓reduceIte, hm c v r hc]
  | false => exact ⟨_, fun c v r _ => by simp only [forwardDem_eq, State.disguised_dem, hr]; rfl⟩

/-! ### The loops in disguise -/

/-- A step of the unit's own sets the bits `m` of `STATUS` in any disguise, and reads no configuration. -/
def BlindAdvance (f : State → State) (s : State) : Prop :=
  ∃ m, ∀ c v r, f (s.disguised c v r) = (f s).disguised c (v ||| m) r

theorem realAdvance_blind (k : CdrfLatch) (b : Bit) (s : State) : BlindAdvance (fun t => (realAdvance k b t).1) s := by
  refine ⟨if realHits k b s.cdrf then BitVec.twoPow 64 Flag.satf.bit else 0#64, fun c v r => ?_⟩
  simp only [realAdvance_state, State.disguised, withFlag]
  split <;> simp

theorem fixedAdvance_blind (k : CdrxLatch) (b : Bit) (s : State) :
    BlindAdvance (fun t => (fixedAdvance k b t).1) s := by
  refine ⟨if fixedHits k b s.cdrx then BitVec.twoPow 64 Flag.satx.bit else 0#64, fun c v r => ?_⟩
  simp only [fixedAdvance_state, State.disguised, withFlag]
  split <;> simp

/-- The rest of a sample: the recovered bit, if there is one and the path is selected, goes to DEM. -/
theorem BlindAdvance.forward {f : State → State} {s : State} (hf : BlindAdvance f s) (b wraps : Bit) (path : LoopPath) :
    BlindStep (fun t => if wraps && chainSource t.cfg == some path then forwardDem b (f t) else .running (f t)) s := by
  obtain ⟨m, hm⟩ := hf
  have self := hm s.cfg s.status s.response
  rw [State.disguised_self] at self
  have hchain : (f s).cfg.chain = s.cfg.chain := congrArg (fun t => t.cfg.chain) self
  have source {c : CfgRegs} (hc : c.chain = s.cfg.chain) : chainSource c = chainSource s.cfg := by
    rw [chainSource, chainSource, hc]
  by_cases hw : (wraps && chainSource s.cfg == some path) = true
  · obtain ⟨n, hn⟩ := forwardDem_blind b (f s)
    refine ⟨m ||| n, fun c v r hc => ?_⟩
    simp only [State.disguised_cfg, source hc, hw, if_true, hm]
    rw [hn _ _ _ (hc.trans hchain.symm), BitVec.or_assoc]
  · refine ⟨m, fun c v r hc => ?_⟩
    simp only [State.disguised_cfg, source hc, hw, hm]; rfl

/-! ### Commands in disguise -/

/-- What the command does and answers in `s` does not depend on the disguise; it sets the bits `m` of `STATUS`. -/
def Blind (f : State → StepOutcome) (s : State) : Prop :=
  ∀ t, f s = .next t → ∃ m, ∀ c v r, c.chain = s.cfg.chain →
    f (s.disguised c v r) = .next (t.disguised c (v ||| m) t.response)

/-- A command that sets no flag. -/
theorem Blind.of_flagless {f : State → StepOutcome} {s : State}
    (h : ∀ t, f s = .next t → ∀ c v r, f (s.disguised c v r) = .next (t.disguised c v t.response)) : Blind f s :=
  fun t ht => ⟨0#64, fun c v r _ => by rw [h t ht, BitVec.or_zero]⟩

/-- A command that does in every disguise of `s` what a blind one does. -/
theorem Blind.congr {f g : State → StepOutcome} {s : State} (hg : Blind g s)
    (h : ∀ c v r, f (s.disguised c v r) = g (s.disguised c v r)) : Blind f s := by
  intro t ht
  have self : f s = g s := h s.cfg s.status s.response
  obtain ⟨m, hm⟩ := hg t (self.symm.trans ht)
  exact ⟨m, fun c v r hc => (h c v r).trans (hm c v r hc)⟩

/-- A command that leaves a state that commutes with the disguise. -/
theorem done_blind {f : State → State} {s : State} (h : ∀ c v r, f (s.disguised c v r) = (f s).disguised c v r) :
    Blind (fun t => done (f t)) s := by
  refine .of_flagless fun t ht c v r => ?_
  cases ht
  rw [h]; rfl

/-- The same of a command that ends in an event. -/
theorem raised_blind {f : State → State} {s : State} (e : Event) (info : Nat)
    (h : ∀ c v r, f (s.disguised c v r) = (f s).disguised c v r) : Blind (fun t => raised e info (f t)) s := by
  intro t ht
  cases ht
  refine ⟨BitVec.twoPow 64 e.flag.bit, fun c v r _ => ?_⟩
  dsimp only
  rw [h]; rfl

theorem finish_disguised {p : Option Response} {g : Progress} {t : State} (h : finish p g = .next t) (c : CfgRegs)
    (v : BitVec 64) (r : Option Response) :
    finish p (g.disguised c v r) = .next (t.disguised c v t.response) := by
  cases g <;> cases h <;> rfl

theorem BlindStep.finish {f : State → Progress} {s : State} (h : BlindStep f s) (p : Option Response) :
    Blind (fun t => finish p (f t)) s := by
  obtain ⟨m, hm⟩ := h
  refine fun t ht => ⟨m, fun c v r hc => ?_⟩
  dsimp only
  rw [hm c v r hc]
  exact finish_disguised ht c _ r

/-- A command behind a guard that does not see the disguise: refused with NotRunning (spec/60_exceptions.md R210) or
carried out. -/
theorem Blind.guarded {f : State → StepOutcome} {s : State} (run : State → Bool)
    (hrun : ∀ c v r, run (s.disguised c v r) = run s) (h : run s = true → Blind f s) :
    Blind (fun t => if run t then f t else raised .notRunning 0 t) s := by
  cases hr : run s with
  | true =>
    intro t ht
    simp only [hr, ↓reduceIte] at ht
    obtain ⟨m, hm⟩ := h hr t ht
    exact ⟨m, fun c v r hc => by simpa only [hrun, hr, ↓reduceIte] using hm c v r hc⟩
  | false => exact .congr (raised_blind (f := id) .notRunning 0 fun _ _ _ => rfl) fun c v r => by simp [hrun, hr]

theorem execDemLevel_blind (l : Bit) (s : State) : Blind (execDemLevel l) s :=
  .guarded (fun t => t.dem.run) (fun _ _ _ => rfl) fun _ => (demStep_blind l s).finish none

theorem execScnBit_blind (b : Bit) (s : State) : Blind (execScnBit b) s :=
  .guarded (fun t => scnRunning t.scn) (fun _ _ _ => rfl) fun _ => (scnStep_blind b s).finish none

theorem encCommand_blind (effect : State → State) (s : State)
    (h : ∀ c v r, effect (s.disguised c v r) = (effect s).disguised c v r) : Blind (encCommand effect) s :=
  .guarded (fun t => t.enc.run) (fun _ _ _ => rfl) fun _ => done_blind h

theorem flushed_disguised (s : State) (c : CfgRegs) (v : BitVec 64) (r : Option Response) :
    (s.disguised c v r).flushed = s.flushed.disguised c v r := by
  unfold State.flushed State.disguised
  dsimp only
  split <;> rfl

/-- What SCN.END does to the state is read off the registers of SCN: it replaces them, and ends normally or in an event
(spec/42_sync_frame.md R127). -/
theorem execScnEnd_of_scn (x : ScnUnit) :
    ∃ u, (∀ s, s.scn = x → execScnEnd s = done (s.setScn u)) ∨
      ∃ e info, ∀ s, s.scn = x → execScnEnd s = raised e info (s.setScn u) := by
  cases hp : x.phase with
  | idle | done => exact ⟨x, .inr ⟨.notRunning, 0, by rintro s rfl; simp only [execScnEnd, hp]; rfl⟩⟩
  | scan => exact ⟨{ x with evidx := x.idx, phase := .done }, .inr ⟨.markerNotFound, x.idx, by
      rintro s rfl; simp only [execScnEnd, hp]⟩⟩
  | payload =>
    by_cases h0 : x.cnt = 0
    · exact ⟨{ x with discard := x.cnt, dangle := dangling x, phase := .done }, .inl (by
        rintro s rfl; simp only [execScnEnd, hp]; exact if_pos h0)⟩
    · exact ⟨{ x with discard := x.cnt, dangle := dangling x, phase := .done, evidx := x.idx },
        .inr ⟨.truncatedFrame, x.cnt.toNat, by rintro s rfl; simp only [execScnEnd, hp]; exact if_neg h0⟩⟩

theorem execScnEnd_blind (s : State) : Blind execScnEnd s := by
  obtain ⟨u, he | ⟨e, info, he⟩⟩ := execScnEnd_of_scn s.scn
  · exact .congr (done_blind (f := fun t => t.setScn u) fun _ _ _ => rfl) fun _ _ _ => he _ rfl
  · exact .congr (raised_blind (f := fun t => t.setScn u) e info fun _ _ _ => rfl) fun _ _ _ => he _ rfl

theorem execEncStart_blind (v : Scheme) (tb : BitVec 32) (s : State) : Blind (execEncStart v tb) s := by
  by_cases hl : legalNonzero tb = true
  · exact .congr (done_blind (f := fun t => t.setEnc _) fun _ _ _ => rfl) fun _ _ _ => if_pos hl
  · exact .congr (raised_blind (f := id) .badOperand 0x10 fun _ _ _ => rfl) fun _ _ _ => if_neg hl

/-- A sample of CDRF reads no configuration but `CHAIN` (spec/70_reset_and_hazards.md R241). -/
theorem realCommand_blind (b : Bit) (s : State) : Blind (realCommand b) s := by
  refine .guarded (fun t => t.cdrf.run) (fun _ _ _ => rfl) fun _ => ?_
  cases hk : s.cdrf.latch with
  | none => intro t ht; simp [hk] at ht
  | some k =>
    refine .congr (((realAdvance_blind k b s).forward b (realWraps s.cdrf) .real).finish (realAdvance k b s).2)
      fun c v r => ?_
    simp only [State.disguised_cdrf, hk, realStep, realAdvance_pending]; rfl

/-- The same of a sample of CDRX, at every register width. -/
theorem fixedCommand_blind (w : Option Nat) (b : Bit) (s : State) : Blind (fixedCommand w b) s := by
  refine .guarded (fun t => t.cdrx.run && !t.cdrx.halt) (fun _ _ _ => rfl) fun _ => ?_
  cases hk : s.cdrx.latch with
  | none => intro t ht; simp [hk] at ht
  | some k =>
    cases ho : fixedOverflow w k b s.cdrx with
    | some step =>
      refine .congr (raised_blind (f := fun t => t.setCdrx
        { s.cdrx with halt := true, faultIdx := s.cdrx.idx, faultStep := step })
        .numericOverflow s.cdrx.idx fun _ _ _ => rfl) fun c v r => ?_
      simp only [State.disguised_cdrx, hk, fixedStep, ho, fixedFault]
    | none =>
      refine .congr (((fixedAdvance_blind k b s).forward b (fixedWraps s.cdrx) .fixed).finish (fixedAdvance k b s).2)
        fun c v r => ?_
      simp only [State.disguised_cdrx, hk, fixedStep, ho, fixedAdvance_pending]; rfl

/-- The commands that read no configuration register but `CHAIN` and clear no flag: no START of SCN or a loop, no RD,
WR, RESET or CLRSTAT. -/
def configBlind : Instr → Bool
  | .nop | .encStart _ _ | .encByte _ | .encBit _ | .encRaw _ | .encSync | .encFlush | .encPre _ => true
  | .demStart | .demLevel _ | .scnBit _ | .scnEnd | .cdrfSample _ | .cdrfAmp _ | .cdrxSample _ | .cdrxAmp _ => true
  | _ => false

theorem exec_blind (i : Instr) (hi : configBlind i = true) (s : State) : Blind (exec i) s := by
  cases i with
  | nop => exact done_blind (f := id) fun _ _ _ => rfl
  | encStart v tb => exact execEncStart_blind v tb s
  | encByte b => rw [funext (encByte_form b)]; exact encCommand_blind _ s fun _ _ _ => rfl
  | encBit d => rw [funext (encBit_form d)]; exact encCommand_blind _ s fun _ _ _ => rfl
  | encPre n => rw [funext (encPre_form n)]; exact encCommand_blind _ s fun _ _ _ => rfl
  | encRaw c =>
    rw [funext (encRaw_form c)]
    exact encCommand_blind _ s fun _ _ _ => by rw [flushed_disguised]; rfl
  | encSync =>
    rw [funext encSync_form]
    exact encCommand_blind _ s fun _ _ _ => by rw [flushed_disguised]; rfl
  | encFlush =>
    rw [funext encFlush_form]
    exact encCommand_blind _ s fun _ _ _ => by rw [flushed_disguised]; rfl
  | demStart => exact done_blind (f := fun t => t.setDem _) fun _ _ _ => rfl
  | demLevel l => exact execDemLevel_blind l s
  | scnBit c => exact execScnBit_blind c s
  | scnEnd => exact execScnEnd_blind s
  | cdrfSample b => exact realCommand_blind b s
  | cdrfAmp a => exact realCommand_blind (slice a) s
  | cdrxSample b => exact fixedCommand_blind _ b s
  | cdrxAmp a => exact fixedCommand_blind _ (slice a) s
  | _ => cases hi

/-- A blind command leaves the configuration as it is and sets bits of `STATUS`. -/
theorem Blind.frame {f : State → StepOutcome} {s t : State} (h : Blind f s) (ht : f s = .next t) :
    t.cfg = s.cfg ∧ ∃ m, t.status = s.status ||| m ∧ ∀ c v r, c.chain = s.cfg.chain →
      f (s.disguised c v r) = .next (t.disguised c (v ||| m) t.response) := by
  obtain ⟨m, hm⟩ := h t ht
  have self := hm s.cfg s.status s.response rfl
  rw [State.disguised_self, ht] at self
  have heq := Host.Outcome.next.inj self
  exact ⟨by rw [heq]; rfl, m, by rw [heq]; rfl, hm⟩

/-- Another configuration with the same `CHAIN` does not reach a blind command. -/
theorem Blind.latched {f : State → StepOutcome} {s t : State} (h : Blind f s) (ht : f s = .next t) {c : CfgRegs}
    (hc : c.chain = s.cfg.chain) : f { s with cfg := c } = .next { t with cfg := c } := by
  obtain ⟨-, m, hstatus, hm⟩ := h.frame ht
  exact (hm c s.status s.response hc).trans (by rw [← hstatus]; rfl)

/-- Settles O53: the commands listed are blind to the configuration, and CLRSTAT does not read it. -/
theorem configurationIsLatched : Obligations.ConfigurationIsLatched := by
  intro s t i c hi hc ht
  have blind (hl : configBlind i = true) := (exec_blind i hl s).latched ht hc
  obtain h | ⟨m, rfl⟩ | ⟨v, tb, rfl⟩ | ⟨b, h⟩ | ⟨n, rfl⟩ | ⟨b, h⟩ := hi
  · simp only [List.mem_cons, List.not_mem_nil, or_false] at h
    obtain rfl | rfl | rfl | rfl | rfl := h <;> exact blind rfl
  · cases ht; rfl
  · exact blind rfl
  · obtain rfl | rfl | rfl := h <;> exact blind rfl
  · exact blind rfl
  · obtain rfl | rfl | rfl | rfl | rfl | rfl := h <;> exact blind rfl

/-! ### `STATUS` steers nothing -/

/-- What the command does and answers in `s` does not depend on `STATUS`; it sets the bits `m` of it. -/
def StatusBlind (f : State → StepOutcome) (s : State) : Prop :=
  ∀ t, f s = .next t → ∃ m, ∀ v, f (s.setStatus v) = .next (t.setStatus (v ||| m))

theorem Blind.statusBlind {f : State → StepOutcome} {s : State} (h : Blind f s) : StatusBlind f s := by
  intro t ht
  obtain ⟨hcfg, m, -, hm⟩ := h.frame ht
  exact ⟨m, fun v => (hm s.cfg v s.response rfl).trans (by rw [← hcfg]; rfl)⟩

/-- The bits a command sets, in the state it begins in. -/
theorem StatusBlind.status {f : State → StepOutcome} {s t : State} (h : StatusBlind f s) (ht : f s = .next t) :
    ∃ m, t.status = s.status ||| m := by
  obtain ⟨m, hm⟩ := h t ht
  have self := hm s.status
  rw [State.setStatus_self, ht] at self
  have heq := Host.Outcome.next.inj self
  exact ⟨m, by rw [heq]; rfl⟩

/-- A command that raises nothing, and leaves a state that commutes with the update of `STATUS`. -/
theorem done_statusBlind {f : State → State} {s : State} (h : ∀ v, f (s.setStatus v) = (f s).setStatus v) :
    StatusBlind (fun t => done (f t)) s := by
  intro t ht
  cases ht
  refine ⟨0#64, fun v => ?_⟩
  dsimp only
  rw [BitVec.or_zero, h]; rfl

theorem raised_statusBlind (e : Event) (info : Nat) (s : State) : StatusBlind (raised e info) s := by
  intro t ht
  cases ht
  exact ⟨BitVec.twoPow 64 e.flag.bit, fun v => rfl⟩

/-- A command that does whatever `STATUS` holds what another one does. -/
theorem StatusBlind.congr {f g : State → StepOutcome} {s : State} (hg : StatusBlind g s)
    (h : ∀ v, f (s.setStatus v) = g (s.setStatus v)) : StatusBlind f s := by
  intro t ht
  have self : f s = g s := h s.status
  obtain ⟨m, hm⟩ := hg t (self.symm.trans ht)
  exact ⟨m, fun v => (h v).trans (hm v)⟩

theorem readReg_statusBlind (idx : Nat) (value : State → Option (BitVec 64)) (s : State)
    (h : ∀ v, value (s.setStatus v) = value s) : StatusBlind (fun t => readReg idx (value t) t) s := by
  cases hv : value s with
  | none => exact .congr (raised_statusBlind .badConfig idx s) fun v => by simp only [h, hv]; rfl
  | some x =>
    intro t ht
    simp only [hv] at ht
    cases ht
    exact ⟨0#64, fun v => by simp only [h, hv, BitVec.or_zero]; rfl⟩

theorem writeReg_statusBlind (op : Nat) (legal : Bool) (cfg : State → CfgRegs) (s : State)
    (h : ∀ v, cfg (s.setStatus v) = cfg s) : StatusBlind (fun t => writeReg op legal (cfg t) t) s := by
  cases legal with
  | true => exact done_statusBlind (f := fun t => t.setCfg (cfg t)) fun v => by rw [h]; rfl
  | false => exact raised_statusBlind .badOperand op s

/-- What CDRF.START does to the state is read off the configuration (spec/43_cdr_float.md R143). -/
theorem execCdrfStart_of_cfg (c : CfgRegs) :
    (∃ n, ∀ s, s.cfg = c → execCdrfStart s = raised .badConfig n s) ∨
      ∃ u, ∀ s, s.cfg = c → execCdrfStart s = done (s.setCdrf u) := by
  cases hl : loopConfig c with
  | error n => exact .inl ⟨n, by rintro s rfl; simp only [execCdrfStart, hl]⟩
  | ok r => exact .inr ⟨_, fun s hs => by simp only [execCdrfStart, hs, hl]; rfl⟩

/-- The same of CDRX.START (spec/44_cdr_fixed.md R162). -/
theorem fixedStart_of_cfg (w : Option Nat) (c : CfgRegs) :
    (∃ n, ∀ s, s.cfg = c → fixedStart w s = raised .badConfig n s) ∨
      ∃ u, ∀ s, s.cfg = c → fixedStart w s = done (s.setCdrx u) := by
  cases hl : loopConfig c with
  | error n => exact .inl ⟨n, by rintro s rfl; simp only [fixedStart, hl]⟩
  | ok r =>
    cases hf : firstUnfit w (fixedLatch c r.1 r.2.1 r.2.2) with
    | some n => exact .inl ⟨n, by rintro s rfl; simp only [fixedStart, hl, hf]⟩
    | none => exact .inr ⟨_, fun s hs => by simp only [fixedStart, hs, hl, hf]; rfl⟩

theorem execCdrfStart_statusBlind (s : State) : StatusBlind execCdrfStart s := by
  obtain ⟨n, he⟩ | ⟨u, he⟩ := execCdrfStart_of_cfg s.cfg
  · exact .congr (raised_statusBlind .badConfig n s) fun _ => he _ rfl
  · exact .congr (done_statusBlind (f := fun t => t.setCdrf u) fun _ => rfl) fun _ => he _ rfl

theorem fixedStart_statusBlind (w : Option Nat) (s : State) : StatusBlind (fixedStart w) s := by
  obtain ⟨n, he⟩ | ⟨u, he⟩ := fixedStart_of_cfg w s.cfg
  · exact .congr (raised_statusBlind .badConfig n s) fun _ => he _ rfl
  · exact .congr (done_statusBlind (f := fun t => t.setCdrx u) fun _ => rfl) fun _ => he _ rfl

/-- Every command but the three whose effect is on `STATUS` itself is blind to it. -/
theorem exec_statusBlind (i : Instr) (hread : i ≠ .rdStatus) (hreset : i ≠ .reset) (hclear : ∀ m, i ≠ .clrstat m)
    (s : State) : StatusBlind (exec i) s := by
  have read {idx : Nat} {value : State → Option (BitVec 64)}
      (hi : ∀ t, exec i t = readReg idx (value t) t) (h : ∀ v, value (s.setStatus v) = value s) : StatusBlind (exec i) s :=
    .congr (readReg_statusBlind idx value s h) fun _ => hi _
  have write {op : Nat} {legal : Bool} {cfg : State → CfgRegs} (hi : ∀ t, exec i t = writeReg op legal (cfg t) t)
      (h : ∀ v, cfg (s.setStatus v) = cfg s) : StatusBlind (exec i) s :=
    .congr (writeReg_statusBlind op legal cfg s h) fun _ => hi _
  cases i with
  | reset => exact absurd rfl hreset
  | clrstat m => exact absurd rfl (hclear m)
  | rdStatus => exact absurd rfl hread
  | nop | encStart | encByte | encBit | encRaw | encSync | encFlush | encPre | demStart | demLevel | scnBit | scnEnd
  | cdrfSample | cdrfAmp | cdrxSample | cdrxAmp => exact (exec_blind _ rfl s).statusBlind
  | scnStart v => exact done_statusBlind (f := fun t => t.setScn _) fun _ => rfl
  | cdrfStart => exact execCdrfStart_statusBlind s
  | cdrxStart => exact fixedStart_statusBlind _ s
  | wrAlpha | wrKi | wrKp | wrIntegMax | wrAccSize | wrTbC | wrChain | wrMarker | wrMarkerLen =>
    exact write (fun _ => by dsimp only [exec]; rfl) (by intro; rfl)
  | _ => exact read (fun _ => by dsimp only [exec]; rfl) (by intro; rfl)

/-- Settles O54: the commands blind to `STATUS`, RESET, which leaves it at its reset value, and CLRSTAT, which clears
the mask's bits of whatever it holds. -/
theorem statusSteersNothing : Obligations.StatusSteersNothing := by
  intro i s t v hread ht
  by_cases hreset : i = .reset
  · subst hreset
    cases ht
    exact ⟨_, rfl⟩
  by_cases hclear : ∃ m, i = .clrstat m
  · obtain ⟨m, rfl⟩ := hclear
    cases ht
    exact ⟨_, rfl⟩
  · obtain ⟨m, hm⟩ := exec_statusBlind i hread hreset (fun m h => hclear ⟨m, h⟩) s t ht
    exact ⟨_, hm v⟩

/-- Settles O55: RD.STATUS leaves `STATUS` as it is, and every other command only sets bits of it. -/
theorem statusFlagsAreSticky : Obligations.StatusFlagsAreSticky := by
  intro i s t n hclear hreset ht hn
  by_cases hread : i = .rdStatus
  · subst hread
    cases ht
    exact hn
  · obtain ⟨m, hm⟩ := (exec_statusBlind i hread hreset hclear s).status ht
    simp only [hm, BitVec.getLsbD_or, hn, Bool.true_or]

/-! ### Which command can change which unit -/

/-- The parts of the state that a command with opcode `op` can change lie in its unit and what is chained behind it. -/
structure Confined (op : Nat) (s t : State) : Prop where
  inbox : t.inbox = s.inbox
  cfg : ¬(0x40 ≤ op ∧ op ≤ 0x48) → t.cfg = s.cfg
  enc : ¬(0x10 ≤ op ∧ op ≤ 0x16) → t.enc = s.enc
  cdrf : ¬(0x30 ≤ op ∧ op ≤ 0x32) → t.cdrf = s.cdrf
  cdrx : ¬(0x38 ≤ op ∧ op ≤ 0x3A) → t.cdrx = s.cdrx
  dem : ¬(0x20 ≤ op ∧ op ≤ 0x21) ∧ (s.cfg.chain.extractLsb' 0 2 = 0 ∨ ¬(0x30 ≤ op ∧ op ≤ 0x3A)) → t.dem = s.dem
  scn : ¬(0x28 ≤ op ∧ op ≤ 0x2A) ∧ (s.cfg.chain.getLsbD 2 = false ∨ ¬(0x20 ≤ op ∧ op ≤ 0x3A)) → t.scn = s.scn

section
variable {op : Nat} (s : State)

theorem confined_refl : Confined op s s :=
  ⟨rfl, fun _ => rfl, fun _ => rfl, fun _ => rfl, fun _ => rfl, fun _ => rfl, fun _ => rfl⟩

theorem confined_setStatus (v : BitVec 64) : Confined op s (s.setStatus v) := { confined_refl s with }

theorem confined_setCfg (h : 0x40 ≤ op ∧ op ≤ 0x48) (c : CfgRegs) : Confined op s (s.setCfg c) :=
  { confined_refl s with cfg := fun hn => absurd h hn }

theorem confined_setEnc (h : 0x10 ≤ op ∧ op ≤ 0x16) (u : EncUnit) : Confined op s (s.setEnc u) :=
  { confined_refl s with enc := fun hn => absurd h hn }

theorem confined_setDem (h : 0x20 ≤ op ∧ op ≤ 0x21) (u : DemUnit) : Confined op s (s.setDem u) :=
  { confined_refl s with dem := fun hn => absurd h hn.1 }

theorem confined_setScn (h : 0x28 ≤ op ∧ op ≤ 0x2A) (u : ScnUnit) : Confined op s (s.setScn u) :=
  { confined_refl s with scn := fun hn => absurd h hn.1 }

theorem confined_setCdrf (h : 0x30 ≤ op ∧ op ≤ 0x32) (u : CdrfUnit) : Confined op s (s.setCdrf u) :=
  { confined_refl s with cdrf := fun hn => absurd h hn }

theorem confined_setCdrx (h : 0x38 ≤ op ∧ op ≤ 0x3A) (u : CdrxUnit) : Confined op s (s.setCdrx u) :=
  { confined_refl s with cdrx := fun hn => absurd h hn }

end

/-- The outcome, if it is a next state, is a confined one, with a response. -/
def ConfinedOutcome (op : Nat) (s : State) (o : StepOutcome) : Prop :=
  ∀ t, o = .next t → Confined op s t ∧ t.response ≠ none

section
variable {op : Nat} {s t : State}

theorem Confined.setResponse (h : Confined op s t) (r : Option Response) : Confined op s (t.setResponse r) :=
  { h with }

theorem Confined.done (h : Confined op s t) : ConfinedOutcome op s (done t) := by
  rintro _ ⟨⟩
  exact ⟨h.setResponse _, nofun⟩

theorem Confined.raised (h : Confined op s t) (e : Event) (info : Nat) : ConfinedOutcome op s (raised e info t) := by
  rintro _ ⟨⟩
  exact ⟨{ h with }, nofun⟩

theorem Confined.finish {g : Progress} (h : Confined op s g.state) (hg : ∀ u, g = .ended u → u.response ≠ none)
    (p : Option Response) : ConfinedOutcome op s (finish p g) := by
  cases g with
  | running u => rintro _ ⟨⟩; exact ⟨h.setResponse _, nofun⟩
  | ended u => rintro _ ⟨⟩; exact ⟨h, hg _ rfl⟩

end

/-! ### A violation ends the command -/

/-- Only a violation of RLL27 ends a step of the scanner, with CodeViolation and the code bit's index
(spec/42_sync_frame.md R125). -/
theorem scnStep_ended {s t : State} {c : Bit} (hr : scnRunning s.scn = true) (h : scnStep c s = .ended t) :
    t.response = some (eventResponse .codeViolation s.scn.idx) := by
  obtain ⟨hscan | hpay, -⟩ := (scnRunning_iff _).mp hr
  · rw [scnStep_scan s c hscan] at h
    cases h
  · obtain ⟨_, _, _, -, he⟩ | ⟨-, he⟩ := scnStep_payload_cases s c hpay <;> cases he.symm.trans h
    rfl

theorem forwardScn_ended {s t : State} {c : Bit} (h : forwardScn c s = .ended t) :
    t.response = some (eventResponse .codeViolation s.scn.idx) := by
  rw [forwardScn_eq] at h
  split at h
  next hr => exact scnStep_ended hr h
  next => cases h

theorem demStep_ended {s t : State} {l : Bit} (h : demStep l s = .ended t) :
    t.response = some (eventResponse .codeViolation s.scn.idx) := by
  cases hs : s.dem.haveSample with
  | false =>
    rw [demStep_first s l hs] at h
    cases h
  | true =>
    rw [demStep_later s l hs] at h
    split at h
    · have := forwardScn_ended h
      exact this
    · cases h

theorem forwardDem_ended {s t : State} {b : Bit} (h : forwardDem b s = .ended t) :
    t.response = some (eventResponse .codeViolation s.scn.idx) := by
  rw [forwardDem_eq] at h
  split at h
  · exact demStep_ended h
  · cases h

/-! ### The chain stays behind its links -/

theorem Progress.eq_state (g : Progress) : g = .running g.state ∨ g = .ended g.state := by
  cases g
  · exact .inl rfl
  · exact .inr rfl

theorem demStep_unchained {s : State} (h : s.cfg.chain.getLsbD 2 = false) (l : Bit) :
    (demStep l s).state.scn = s.scn := by
  cases hs : s.dem.haveSample with
  | false => rw [demStep_first s l hs]; rfl
  | true =>
    have hn : ¬chainsScn s.cfg = true := by rw [chainsScn, h]; nofun
    rw [demStep_later s l hs, if_neg hn]; rfl

theorem forwardDem_unchained {s : State} (h : s.cfg.chain.getLsbD 2 = false) (b : Bit) :
    (forwardDem b s).state.scn = s.scn := by
  rw [forwardDem_eq]
  split
  · exact demStep_unchained h b
  · rfl

/-- A selected path means that `CHAIN[1:0]` is not 0 (spec/10_state.md R16). -/
theorem chainSource_some {c : CfgRegs} {path : LoopPath} (h : chainSource c = some path) :
    c.chain.extractLsb' 0 2 ≠ 0 := by
  intro h0
  rw [chainSource, h0] at h
  cases h

theorem Confined.trans {op : Nat} {s t u : State} (h : Confined op s t) (hc : t.cfg = s.cfg) (k : Confined op t u) :
    Confined op s u where
  inbox := k.inbox.trans h.inbox
  cfg hn := (k.cfg hn).trans (h.cfg hn)
  enc hn := (k.enc hn).trans (h.enc hn)
  cdrf hn := (k.cdrf hn).trans (h.cdrf hn)
  cdrx hn := (k.cdrx hn).trans (h.cdrx hn)
  dem hn := (k.dem (by rwa [hc])).trans (h.dem hn)
  scn hn := (k.scn (by rwa [hc])).trans (h.scn hn)

theorem scnStep_confined {op : Nat} (h : 0x28 ≤ op ∧ op ≤ 0x2A) (s : State) (c : Bit) :
    Confined op s (scnStep c s).state := by
  obtain ⟨hcfg, henc, hdem, hcdrf, hcdrx, hinbox, -⟩ := scnStep_frame s c _ (Progress.eq_state _)
  exact ⟨hinbox, fun _ => hcfg, fun _ => henc, fun _ => hcdrf, fun _ => hcdrx, fun _ => hdem, fun hn => absurd h hn.1⟩

/-- What is forwarded to DEM can change DEM, and SCN behind it if `CHAIN[2] = 1`. -/
theorem forwardDem_confined {op : Nat} {s : State}
    (h : 0x20 ≤ op ∧ op ≤ 0x21 ∨ (0x30 ≤ op ∧ op ≤ 0x3A) ∧ s.cfg.chain.extractLsb' 0 2 ≠ 0) (b : Bit) :
    Confined op s (forwardDem b s).state := by
  obtain ⟨hcfg, henc, hcdrf, hcdrx, hinbox, -⟩ := forwardDem_frame s b _ (Progress.eq_state _)
  refine ⟨hinbox, fun _ => hcfg, fun _ => henc, fun _ => hcdrf, fun _ => hcdrx, fun ⟨hn, hc⟩ => ?_,
    fun ⟨_, hc⟩ => ?_⟩
  · obtain h | ⟨hop, hne⟩ := h
    · exact absurd h hn
    · exact absurd (hc.resolve_right (not_not_intro hop)) hne
  · exact forwardDem_unchained (hc.resolve_right (by omega)) b

/-- The end of a sample command: a confined step of the loop's own, and the forwarding on the selected path. -/
theorem forwarded_confined {op : Nat} {s u : State} (hop : 0x30 ≤ op ∧ op ≤ 0x3A) (hu : Confined op s u) (b wraps : Bit)
    (path : LoopPath) (p : Option Response) : ConfinedOutcome op s
      (finish p (if wraps && chainSource s.cfg == some path then forwardDem b u else .running u)) := by
  split
  next hf =>
    simp only [Bool.and_eq_true, beq_iff_eq] at hf
    have hcfg : u.cfg = s.cfg := hu.cfg (by omega)
    have hchain : u.cfg.chain.extractLsb' 0 2 ≠ 0 := hcfg ▸ chainSource_some hf.2
    refine (hu.trans hcfg (forwardDem_confined (.inr ⟨hop, hchain⟩) b)).finish (fun t ht => ?_) p
    rw [forwardDem_ended ht]; nofun
  next => exact Confined.finish (g := .running u) hu (fun _ h => Progress.noConfusion h) p

theorem realCommand_confined {op : Nat} (h : 0x30 ≤ op ∧ op ≤ 0x32) (b : Bit) (s : State) :
    ConfinedOutcome op s (realCommand b s) := by
  unfold realCommand
  split
  next =>
    split
    next k _ =>
      have own : Confined op s (realAdvance k b s).1 := by
        rw [realAdvance_state]
        exact { confined_refl s with cdrf := fun hn => absurd h hn }
      exact forwarded_confined (by omega) own b _ .real _
    next => intro t ht; cases ht
  next => exact (confined_refl s).raised _ _

theorem fixedCommand_confined {op : Nat} (h : 0x38 ≤ op ∧ op ≤ 0x3A) (w : Option Nat) (b : Bit) (s : State) :
    ConfinedOutcome op s (fixedCommand w b s) := by
  unfold fixedCommand
  split
  next =>
    split
    next k _ =>
      unfold fixedStep
      split
      next step _ => exact (confined_setCdrx s h _).raised _ _
      next =>
        have own : Confined op s (fixedAdvance k b s).1 := by
          rw [fixedAdvance_state]
          exact { confined_refl s with cdrx := fun hn => absurd h hn }
        exact forwarded_confined (by omega) own b _ .fixed _
    next => intro t ht; cases ht
  next => exact (confined_refl s).raised _ _

theorem execDemLevel_confined {op : Nat} (h : 0x20 ≤ op ∧ op ≤ 0x21) (l : Bit) (s : State) :
    ConfinedOutcome op s (execDemLevel l s) := by
  unfold execDemLevel
  split
  next hr =>
    have he : forwardDem l s = demStep l s := by rw [forwardDem_eq, if_pos hr]
    refine Confined.finish (he ▸ forwardDem_confined (.inl h) l) (fun t ht => ?_) none
    rw [demStep_ended ht]; nofun
  next => exact (confined_refl s).raised _ _

theorem execScnBit_confined {op : Nat} (h : 0x28 ≤ op ∧ op ≤ 0x2A) (c : Bit) (s : State) :
    ConfinedOutcome op s (execScnBit c s) := by
  unfold execScnBit
  split
  next hr =>
    refine (scnStep_confined h s c).finish (fun t ht => ?_) none
    rw [scnStep_ended hr ht]; nofun
  next => exact (confined_refl s).raised _ _

theorem execScnEnd_confined {op : Nat} (h : 0x28 ≤ op ∧ op ≤ 0x2A) (s : State) :
    ConfinedOutcome op s (execScnEnd s) := by
  obtain ⟨u, he | ⟨e, info, he⟩⟩ := execScnEnd_of_scn s.scn <;> rw [he s rfl]
  · exact (confined_setScn s h u).done
  · exact (confined_setScn s h u).raised e info

theorem execEncStart_confined {op : Nat} (h : 0x10 ≤ op ∧ op ≤ 0x16) (v : Scheme) (tb : BitVec 32) (s : State) :
    ConfinedOutcome op s (execEncStart v tb s) := by
  unfold execEncStart
  split
  · exact (confined_setEnc s h _).done
  · exact (confined_refl s).raised _ _

theorem encCommand_confined {op : Nat} {s : State} {effect : State → State} (h : Confined op s (effect s)) :
    ConfinedOutcome op s (encCommand effect s) := by
  unfold encCommand
  split
  · exact h.done
  · exact (confined_refl s).raised _ _

theorem sentCode_confined {op : Nat} (h : 0x10 ≤ op ∧ op ≤ 0x16) (s : State) (cs : List Bit) :
    Confined op s (s.sentCode cs) :=
  { confined_refl s with enc := fun hn => absurd h hn }

theorem sentData_confined {op : Nat} (h : 0x10 ≤ op ∧ op ≤ 0x16) (s : State) (ds : List Bit) :
    Confined op s (s.sentData ds) :=
  { confined_refl s with enc := fun hn => absurd h hn }

theorem flushed_confined {op : Nat} (h : 0x10 ≤ op ∧ op ≤ 0x16) (s : State) : Confined op s s.flushed := by
  unfold State.flushed
  split
  · exact { confined_refl s with enc := fun hn => absurd h hn }
  · exact confined_refl s

/-- A command behind a flush: code bits past the line encoder. -/
theorem flushed_sentCode_confined {op : Nat} (h : 0x10 ≤ op ∧ op ≤ 0x16) (s : State) (cs : List Bit) :
    Confined op s (s.flushed.sentCode cs) :=
  (flushed_confined h s).trans ((flushed_confined h s).cfg (by omega)) (sentCode_confined h _ cs)

theorem execCdrfStart_confined {op : Nat} (h : 0x30 ≤ op ∧ op ≤ 0x32) (s : State) :
    ConfinedOutcome op s (execCdrfStart s) := by
  obtain ⟨n, he⟩ | ⟨u, he⟩ := execCdrfStart_of_cfg s.cfg <;> rw [he s rfl]
  · exact (confined_refl s).raised .badConfig n
  · exact (confined_setCdrf s h u).done

theorem fixedStart_confined {op : Nat} (h : 0x38 ≤ op ∧ op ≤ 0x3A) (w : Option Nat) (s : State) :
    ConfinedOutcome op s (fixedStart w s) := by
  obtain ⟨n, he⟩ | ⟨u, he⟩ := fixedStart_of_cfg w s.cfg <;> rw [he s rfl]
  · exact (confined_refl s).raised .badConfig n
  · exact (confined_setCdrx s h u).done

theorem writeReg_confined {op : Nat} (h : 0x40 ≤ op ∧ op ≤ 0x48) (n : Nat) (legal : Bool) (c : CfgRegs) (s : State) :
    ConfinedOutcome op s (writeReg n legal c s) := by
  cases legal with
  | true => exact (confined_setCfg s h c).done
  | false => exact (confined_refl s).raised .badOperand n

theorem readReg_confined {op : Nat} (idx : Nat) (value : Option (BitVec 64)) (s : State) :
    ConfinedOutcome op s (readReg idx value s) := by
  cases value with
  | none => exact (confined_refl s).raised .badConfig idx
  | some v => rintro _ ⟨⟩; exact ⟨(confined_refl s).setResponse _, nofun⟩

/-- Every command but RESET is confined to the units its opcode stands for. -/
theorem exec_confined (i : Instr) (hreset : i ≠ .reset) (s : State) :
    ConfinedOutcome (opOf (encode i)).toNat s (exec i s) := by
  cases i <;> simp only [encode, opOf_mkWord]
  case reset => exact absurd rfl hreset
  case nop => exact (confined_refl s).done
  case clrstat m => exact (confined_setStatus s _).done
  case encStart v tb => exact execEncStart_confined (by decide) v tb s
  case encByte b => rw [encByte_form]; exact encCommand_confined (sentData_confined (by decide) s _)
  case encBit d => rw [encBit_form]; exact encCommand_confined (sentData_confined (by decide) s _)
  case encPre n => rw [encPre_form]; exact encCommand_confined (sentData_confined (by decide) s _)
  case encRaw c => rw [encRaw_form]; exact encCommand_confined (flushed_sentCode_confined (by decide) s _)
  case encSync => rw [encSync_form]; exact encCommand_confined (flushed_sentCode_confined (by decide) s _)
  case encFlush => rw [encFlush_form]; exact encCommand_confined (flushed_sentCode_confined (by decide) s _)
  case demStart => exact (confined_setDem s (by decide) _).done
  case demLevel l => exact execDemLevel_confined (by decide) l s
  case scnStart v => exact (confined_setScn s (by decide) _).done
  case scnBit c => exact execScnBit_confined (by decide) c s
  case scnEnd => exact execScnEnd_confined (by decide) s
  case cdrfStart => exact execCdrfStart_confined (by decide) s
  case cdrfSample b => exact realCommand_confined (by decide) b s
  case cdrfAmp a => exact realCommand_confined (by decide) (slice a) s
  case cdrxStart => exact fixedStart_confined (by decide) _ s
  case cdrxSample b => exact fixedCommand_confined (by decide) _ b s
  case cdrxAmp a => exact fixedCommand_confined (by decide) _ (slice a) s
  case wrAlpha | wrKi | wrKp | wrIntegMax | wrAccSize | wrTbC | wrChain | wrMarker | wrMarkerLen =>
    dsimp only [exec]; exact writeReg_confined (by decide) _ _ _ s
  all_goals dsimp only [exec]; exact readReg_confined _ _ s

/-- Settles O57, clause by clause from the confinement of each command. -/
theorem commandsStayInTheirUnits : Obligations.CommandsStayInTheirUnits := by
  intro i s t ht hreset
  obtain ⟨h, hresponse⟩ := exec_confined i hreset s t ht
  exact ⟨h.inbox, hresponse, h.cfg, h.enc, h.cdrf, h.cdrx, h.dem, h.scn⟩

/-! ### The forwarding chain -/

/-- Settles O44: a later sample forwards the bit it emitted, and the scanner runs or it does not. -/
theorem demForwardsToScn : Obligations.DemForwardsToScn := by
  intro s l hrun hhave hchain
  dsimp only
  generalize hown : ({ s with
    dem := { s.dem with prev := l, cnt := s.dem.cnt + 1 }
    ports := { s.ports with demod := s.ports.demod ++ [s.dem.prev ^^ l] } } : State) = own
  have hscn : own.scn = s.scn := by rw [← hown]
  have forwards : exec (.demLevel l) s = finish none (forwardScn (s.dem.prev ^^ l) own) := by
    have hc : chainsScn s.cfg = true := hchain
    simp only [exec, execDemLevel, hrun, ↓reduceIte, demStep_later s l hhave, hc, ← hown, hhave]
  rw [← scnRunning_iff, forwards, forwardScn_eq, hscn]
  refine ⟨fun hr => ?_, fun hr => ?_⟩
  · rw [if_pos hr]
    simp only [exec, execScnBit, hscn, hr, ↓reduceIte]
  · rw [if_neg hr, ← hown]; rfl

/-- The chain does not read the response a command has so far, and one that ends in an event answers its own. -/
theorem BlindStep.setResponse {f : State → Progress} {s : State} (h : BlindStep f s) (r : Option Response) :
    (∀ t, f s = .running t → f (s.setResponse r) = .running (t.setResponse r)) ∧
      (∀ t, f s = .ended t → f (s.setResponse r) = .ended t) := by
  obtain ⟨m, hm⟩ := h
  have self := hm s.cfg s.status s.response rfl
  have other : f (s.setResponse r) = _ := hm s.cfg s.status r rfl
  rw [State.disguised_self] at self
  refine ⟨fun t ht => ?_, fun t ht => ?_⟩ <;> rw [ht] at self other <;> rw [other]
  · have heq := Progress.running.inj self
    exact congrArg Progress.running (by rw [heq]; rfl)
  · exact self.symm

/-- What a loop forwards to a running DEM is handled as by DEM.LEVEL after the loop's own step; the loop's response
stands unless the chain raised CodeViolation (spec/60_exceptions.md R203). -/
theorem finish_forwardDem_run {s : State} (hrun : s.dem.run = true) (b : Bit) (p : Option Response) :
    ∃ u, exec (.demLevel b) (s.setResponse (some (p.getD okResponse))) = .next u ∧
      finish p (forwardDem b s) = .next (if u.response.map (fun r => r.st) = some 0x05 then u
        else { u with response := some (p.getD okResponse) }) := by
  obtain ⟨running, ended⟩ := (demStep_blind b s).setResponse (some (p.getD okResponse))
  have level : exec (.demLevel b) (s.setResponse (some (p.getD okResponse))) =
      finish none (demStep b (s.setResponse (some (p.getD okResponse)))) := by
    simp only [exec, execDemLevel, State.setResponse_dem, hrun, ↓reduceIte]
  rw [level, forwardDem_eq, if_pos hrun]
  cases hd : demStep b s with
  | running t =>
    rw [running t hd]
    have hok : ¬some (0 : BitVec 8) = some 0x05 := by decide
    exact ⟨_, rfl, congrArg Host.Outcome.next (if_neg hok).symm⟩
  | ended t =>
    have hviolation : t.response.map (fun r => r.st) = some 0x05 := by rw [demStep_ended hd]; rfl
    rw [ended t hd]
    exact ⟨t, rfl, by rw [if_pos hviolation]; rfl⟩

/-- What a loop forwards while DEM does not run is dropped (spec/41_nrzi.md R110). -/
theorem finish_forwardDem_drop {s : State} (hrun : s.dem.run = false) (b : Bit) (p : Option Response) :
    finish p (forwardDem b s) =
      .next { s with status := s.status ||| 0x400, response := some (p.getD okResponse) } := by
  rw [forwardDem_eq, hrun]; rfl

/-- The link from a loop to DEM: `own` is what the sample leaves with `CHAIN = 0`, and `o` is its outcome when the bit it
recovers is forwarded from the state `t` of the loop's own step. -/
theorem loopForwards {s own t : State} {o : StepOutcome} {p : Option Response} (b : Bit) (hcfg : t.cfg = s.cfg)
    (hdem : t.dem = s.dem) (ho : o = finish p (forwardDem b t))
    (hown : own = { t with cfg := { s.cfg with chain := 0 }, response := some (p.getD okResponse) }) :
    (s.dem.run = true → ∃ u, exec (.demLevel b) { own with cfg := s.cfg } = .next u ∧
      o = .next (if u.response.map (fun r => r.st) = some 0x05 then u else { u with response := own.response })) ∧
    (s.dem.run = false → o = .next { own with cfg := s.cfg, status := own.status ||| 0x400 }) := by
  subst hown ho
  have same : ({ t with cfg := s.cfg, response := some (p.getD okResponse) } : State) =
      t.setResponse (some (p.getD okResponse)) := by rw [← hcfg]; rfl
  refine ⟨fun hrun => ?_, fun hrun => ?_⟩
  · dsimp only
    rw [same]
    exact finish_forwardDem_run (hdem ▸ hrun) b p
  · rw [finish_forwardDem_drop (hdem ▸ hrun) b p, ← hcfg]

/-- A sample of a running CDRF, whatever the configuration. -/
theorem realCommand_running {s : State} {k : CdrfLatch} (hrun : s.cdrf.run = true) (hk : s.cdrf.latch = some k)
    (hwraps : s.cdrf.acc < s.cdrf.last) (b : Bit) :
    realCommand b s = finish (realAdvance k b s).2
      (if chainSource s.cfg = some .real then forwardDem b (realAdvance k b s).1 else .running (realAdvance k b s).1) := by
  have hw : realWraps s.cdrf = true := decide_eq_true hwraps
  simp only [realCommand, hrun, hk, realStep, hw, Bool.true_and, beq_iff_eq, ↓reduceIte]

theorem fixedCommand_running {w : Option Nat} {s : State} {k : CdrxLatch} {b : Bit} (hrun : s.cdrx.run = true)
    (hhalt : s.cdrx.halt = false) (hk : s.cdrx.latch = some k) (ho : fixedOverflow w k b s.cdrx = none)
    (hwraps : s.cdrx.acc < s.cdrx.last) :
    fixedCommand w b s = finish (fixedAdvance k b s).2
      (if chainSource s.cfg = some .fixed then forwardDem b (fixedAdvance k b s).1
        else .running (fixedAdvance k b s).1) := by
  have hw : fixedWraps s.cdrx = true := decide_eq_true hwraps
  simp only [fixedCommand, hrun, hhalt, hk, fixedStep, ho, hw, Bool.true_and, Bool.not_false, beq_iff_eq, ↓reduceIte]

theorem chainSource_real {c : CfgRegs} (h : c.chain.extractLsb' 0 2 = 1) : chainSource c = some .real := by
  rw [chainSource, if_pos h]

theorem chainSource_fixed {c : CfgRegs} (h : c.chain.extractLsb' 0 2 = 2) : chainSource c = some .fixed := by
  rw [chainSource, h]; rfl

theorem chainSource_unchained (c : CfgRegs) : chainSource { c with chain := 0 } ≠ some .real ∧
    chainSource { c with chain := 0 } ≠ some .fixed := by
  constructor <;> nofun

/-- What a sample of a running CDRF leaves while its path is not selected: the loop's own step, and its response. -/
theorem realCommand_unchained {s own : State} {k : CdrfLatch} {b : Bit} {c : CfgRegs} (hrun : s.cdrf.run = true)
    (hk : s.cdrf.latch = some k) (hwraps : s.cdrf.acc < s.cdrf.last) (hc : chainSource c ≠ some .real)
    (hown : realCommand b (s.setCfg c) = .next own) :
    own = { (realAdvance k b s).1 with cfg := c, response := some ((realAdvance k b s).2.getD okResponse) } := by
  have sample := realCommand_running (s := s.setCfg c) hrun hk hwraps b
  rw [State.setCfg_cfg, if_neg hc, finish_running, hown] at sample
  rw [Host.Outcome.next.inj sample]
  simp only [realAdvance_state, realAdvance_pending]; rfl

/-- The same of CDRX; the sample has not overflowed, because the unit has not halted. -/
theorem fixedCommand_unchained {w : Option Nat} {s own : State} {k : CdrxLatch} {b : Bit} {c : CfgRegs}
    (hrun : s.cdrx.run = true) (hhalt : s.cdrx.halt = false) (hk : s.cdrx.latch = some k)
    (hwraps : s.cdrx.acc < s.cdrx.last) (hc : chainSource c ≠ some .fixed)
    (hown : fixedCommand w b (s.setCfg c) = .next own) (hgoing : own.cdrx.halt = false) :
    fixedOverflow w k b s.cdrx = none ∧ own =
      { (fixedAdvance k b s).1 with cfg := c, response := some ((fixedAdvance k b s).2.getD okResponse) } := by
  cases ho : fixedOverflow w k b s.cdrx with
  | some step =>
    simp only [fixedCommand, State.setCfg_cdrx, hrun, hhalt, hk, fixedStep, ho, Bool.not_false, Bool.and_true,
      ↓reduceIte] at hown
    cases hown
    cases hgoing
  | none =>
    have sample := fixedCommand_running (s := s.setCfg c) hrun hhalt hk ho hwraps
    rw [State.setCfg_cfg, if_neg hc, finish_running, hown] at sample
    refine ⟨rfl, ?_⟩
    rw [Host.Outcome.next.inj sample]
    simp only [fixedAdvance_state, fixedAdvance_pending]; rfl

/-- Settles O45: each loop takes its own step, which reads no configuration, and forwards last. -/
theorem loopsForwardToDem : Obligations.LoopsForwardToDem := by
  refine ⟨fun s b own hrun hwraps hchain hown => ?_, fun s b own hrun hhalt hwraps hchain hown hgoing => ?_,
    fun _ _ => rfl, fun _ _ => rfl⟩
  · cases hk : s.cdrf.latch with
    | none => simp [exec, execCdrfSample, realCommand, hrun, hk] at hown
    | some k =>
      have sample := realCommand_running hrun hk hwraps b
      rw [if_pos (chainSource_real hchain)] at sample
      exact loopForwards b (by rw [realAdvance_state]) (by rw [realAdvance_state]) sample
        (realCommand_unchained hrun hk hwraps (chainSource_unchained _).1 hown)
  · cases hk : s.cdrx.latch with
    | none => simp [exec, execCdrxSample, fixedCommand, hrun, hhalt, hk] at hown
    | some k =>
      obtain ⟨ho, alone⟩ := fixedCommand_unchained hrun hhalt hk hwraps (chainSource_unchained _).2 hown hgoing
      have sample := fixedCommand_running hrun hhalt hk ho hwraps
      rw [if_pos (chainSource_fixed hchain)] at sample
      exact loopForwards b (by rw [fixedAdvance_state]) (by rw [fixedAdvance_state]) sample alone

/-! ### What `RD` answers -/

/-- Two fields side by side, as a number. -/
theorem toNat_append_eq_add {m n : Nat} (x : BitVec m) (y : BitVec n) :
    (x ++ y).toNat = x.toNat * 2 ^ n + y.toNat := by
  rw [BitVec.toNat_append, ← Nat.shiftLeft_add_eq_or_of_lt y.isLt, Nat.shiftLeft_eq]

theorem valueBits_eq {n : Nat} (v : BitVec n) : valueBits v = BitVec.ofNat 64 v.toNat :=
  (BitVec.ofNat_toNat 64 v).symm

theorem eq_ofNat_of_toNat {v : BitVec 64} {n : Nat} (h : v.toNat = n) : v = BitVec.ofNat 64 n := by
  rw [← h, BitVec.ofNat_toNat, BitVec.setWidth_eq]

/-- The fields of `ENC_STATE` (spec/10_state.md R19). -/
theorem viewEncState_eq (u : EncUnit) : viewEncState u = BitVec.ofNat 64 (u.run.toNat + 2 * u.scheme.code.toNat
    + 8 * u.mfmPrev.toNat + 16 * u.rllState.code.toNat + 128 * u.nrziLevel.toNat) := by
  apply eq_ofNat_of_toNat
  simp only [viewEncState, toNat_append_eq_add, BitVec.toNat_ofBool, BitVec.ofNat_eq_ofNat, BitVec.toNat_ofNat]
  omega

/-- The fields of `DEM_STATE` (R21). -/
theorem viewDemState_eq (u : DemUnit) :
    viewDemState u = BitVec.ofNat 64 (u.run.toNat + 2 * u.haveSample.toNat + 4 * u.prev.toNat) := by
  apply eq_ofNat_of_toNat
  simp only [viewDemState, toNat_append_eq_add, BitVec.toNat_ofBool, BitVec.ofNat_eq_ofNat, BitVec.toNat_ofNat]
  omega

/-- The fields of `SCN_STATE` (R22). -/
theorem viewScnState_eq (u : ScnUnit) : viewScnState u = BitVec.ofNat 64 (u.phase.code.toNat
    + 4 * u.dscheme.code.toNat + 16 * u.found.toNat + 32 * u.halt.toNat) := by
  apply eq_ofNat_of_toNat
  simp only [viewScnState, toNat_append_eq_add, BitVec.toNat_ofBool, BitVec.ofNat_eq_ofNat, BitVec.toNat_ofNat]
  omega

/-- The fields of `DEC_ASM` (R22). -/
theorem viewDecAsm_eq (u : ScnUnit) : viewDecAsm u = BitVec.ofNat 64 (u.shift.toNat + 2 ^ 8 * u.cnt.toNat
    + 2 ^ 11 * u.clen.toNat + 2 ^ 15 * u.cbuf.toNat) := by
  apply eq_ofNat_of_toNat
  simp only [viewDecAsm, toNat_append_eq_add, BitVec.ofNat_eq_ofNat, BitVec.toNat_ofNat]
  omega

/-- The fields of `CDRF_STATE` (R23). -/
theorem viewCdrfState_eq (u : CdrfUnit) : viewCdrfState u = BitVec.ofNat 64 (u.run.toNat + 2 * u.prev.toNat) := by
  apply eq_ofNat_of_toNat
  simp only [viewCdrfState, toNat_append_eq_add, BitVec.toNat_ofBool, BitVec.ofNat_eq_ofNat, BitVec.toNat_ofNat]
  omega

/-- The fields of `CDRX_STATE` (R24). -/
theorem viewCdrxState_eq (u : CdrxUnit) :
    viewCdrxState u = BitVec.ofNat 64 (u.run.toNat + 2 * u.prev.toNat + 4 * u.halt.toNat) := by
  apply eq_ofNat_of_toNat
  simp only [viewCdrxState, toNat_append_eq_add, BitVec.toNat_ofBool, BitVec.ofNat_eq_ofNat, BitVec.toNat_ofNat]
  omega

/-- A read of a written register answers the number its value stands for. -/
theorem readReg_answered {s : State} {v w : BitVec 64} (idx : Nat) (h : v = w) :
    readReg idx (some v) s = .next (s.answered 0 w) := h ▸ rfl

/-- Settles O50: the packed views field by field, the other registers by their width. -/
theorem readStatusEncDemScn : Obligations.ReadStatusEncDemScn := by
  intro s ans rll scheme phase
  have hscheme (v : Scheme) : scheme v = v.code.toNat := by cases v <;> rfl
  have hrll : rll = s.enc.rllState.code.toNat := by dsimp only [rll]; cases s.enc.rllState <;> rfl
  have hphase : phase = s.scn.phase.code.toNat := by dsimp only [phase]; cases s.scn.phase <;> rfl
  simp only [hscheme]
  rw [hrll, hphase]
  exact ⟨rfl,
    ⟨readReg_answered 0x11 (viewEncState_eq _), readReg_answered 0x12 (valueBits_eq _), rfl, rfl⟩,
    ⟨readReg_answered 0x15 (viewDemState_eq _), rfl⟩,
    ⟨readReg_answered 0x17 (viewScnState_eq _), rfl, rfl, rfl, readReg_answered 0x1B (valueBits_eq _),
      readReg_answered 0x1C (valueBits_eq _), rfl, readReg_answered 0x1E (viewDecAsm_eq _), rfl⟩⟩

/-- Settles O51: the packed views field by field, the latched constants by the two cases of the latch. -/
theorem readLoops : Obligations.ReadLoops := by
  intro s ans fx bad
  have written {k : CdrxLatch} (hk : s.cdrx.latch = some k) (idx : Nat) (f : CdrxLatch → Int) :
      readReg idx (s.cdrx.latch.map (fun k => valueFx (f k))) s = .next (fx (f k)) := by rw [hk]; rfl
  have unwritten (hk : s.cdrx.latch = none) (idx : Nat) (f : CdrxLatch → Int) :
      readReg idx (s.cdrx.latch.map (fun k => valueFx (f k))) s = .next (bad (BitVec.ofNat 64 idx)) := by rw [hk]; rfl
  refine ⟨⟨readReg_answered 0x20 (viewCdrfState_eq _), rfl, rfl, rfl, rfl⟩,
    ⟨readReg_answered 0x30 (viewCdrxState_eq _), rfl, rfl, rfl, rfl, rfl, rfl, readReg_answered 0x37 (valueBits_eq _)⟩,
    ⟨rfl, rfl, rfl, rfl, rfl, rfl⟩, fun k hk => ?_, fun hk => ?_, fun v hlo hhi => ?_⟩
  · exact ⟨written hk _ (·.alpha), written hk _ (·.ki), written hk _ (·.kp), written hk _ (·.imax),
      written hk _ (·.accsz), written hk _ (·.ftw0)⟩
  · exact ⟨unwritten hk 0x40 (·.alpha), unwritten hk 0x41 (·.ki), unwritten hk 0x42 (·.kp), unwritten hk 0x43 (·.imax),
      unwritten hk 0x44 (·.accsz), unwritten hk 0x45 (·.ftw0)⟩
  · rw [BitVec.toInt_ofInt]
    exact Int.bmod_eq_of_le (by omega) (by omega)

end Sys2Proof.Machine
end

section
/-! PROOFS. The family of spec/20_memory.md: a register read changes nothing but the response and `STATUS.BADCFG`, and
reading again changes nothing more. -/

namespace Sys2Proof.Machine

/-- Setting a flag again changes nothing. -/
@[simp] theorem withFlag_withFlag (f : Flag) (v : BitVec 64) : withFlag f (withFlag f v) = withFlag f v := by
  simp only [withFlag, BitVec.or_assoc, BitVec.or_self]

/-- Raising an event again changes nothing. -/
@[simp] theorem raise_raise (e : Event) (n : Nat) (s : State) : raise e n (raise e n s) = raise e n s := by
  simp only [raise_eq, withFlag_withFlag]

/-- In `s` the command `f` changes at most the response and `STATUS.BADCFG`, and the same command again changes nothing
(spec/20_memory.md R47). -/
def IdempotentRead (f : State → StepOutcome) (s : State) : Prop :=
  ∃ t, f s = .next t ∧ f t = .next t ∧
    t = { s with status := t.status, response := t.response } ∧ (t.status = s.status ∨ t.status = s.status ||| 0x100)

/-- A register's read is idempotent if the register's value depends on neither of the two fields a read can change. -/
theorem readReg_idempotentRead (idx : Nat) (value : State → Option (BitVec 64)) (s : State)
    (h : ∀ v r, value ((s.setStatus v).setResponse r) = value s) :
    IdempotentRead (fun t => readReg idx (value t) t) s := by
  cases hv : value s with
  | some x =>
    have again : value (s.setResponse (some ⟨0, x⟩)) = some x := (h s.status _).trans hv
    exact ⟨s.setResponse (some ⟨0, x⟩), by simp only [hv]; rfl, by simp only [again]; rfl, rfl, .inl rfl⟩
  | none =>
    have again : value (raise .badConfig idx s) = none := (h _ _).trans hv
    exact ⟨raise .badConfig idx s, by simp only [hv, readReg_none], by simp only [again, readReg_none, raise_raise],
      rfl, .inr rfl⟩

/-- `STATUS` is never unwritten, so the read that answers it leaves it as it is. -/
theorem rdStatus_idempotentRead (s : State) : IdempotentRead (exec .rdStatus) s :=
  ⟨s.setResponse (some ⟨0, s.status⟩), rfl, rfl, rfl, .inl rfl⟩

/-- The `RD` rows stand in the upper half of the opcodes (spec/30_encoding.md R60). -/
theorem read_opcode_ge : ∀ r ∈ readLowRows ++ readHighRows, 0x80 ≤ r.op.toNat := by decide

/-- Every command in the upper half of the opcodes is an idempotent read. -/
theorem exec_idempotentRead (i : Instr) (hop : 0x80 ≤ (opOf (encode i)).toNat) (s : State) :
    IdempotentRead (exec i) s := by
  have read {idx : Nat} {value : State → Option (BitVec 64)} (hi : exec i = fun t => readReg idx (value t) t)
      (h : ∀ v r, value ((s.setStatus v).setResponse r) = value s) : IdempotentRead (exec i) s :=
    hi ▸ readReg_idempotentRead idx value s h
  cases i with
  | rdStatus => exact rdStatus_idempotentRead s
  | nop | reset | clrstat | encStart | encByte | encBit | encRaw | encSync | encFlush | encPre | demStart | demLevel
  | scnStart | scnBit | scnEnd | cdrfStart | cdrfSample | cdrfAmp | cdrxStart | cdrxSample | cdrxAmp
  | wrAlpha | wrKi | wrKp | wrIntegMax | wrAccSize | wrTbC | wrChain | wrMarker | wrMarkerLen =>
    rw [encode, opOf_mkWord] at hop
    exact absurd hop (by decide)
  | _ => exact read (funext fun _ => by dsimp only [exec]; rfl) fun _ _ => rfl

/-- Settles O52: the opcodes of the `RD` rows are in the upper half, and every command there is an idempotent read. -/
theorem readsAreIdempotent : Obligations.ReadsAreIdempotent := by
  rintro s i ⟨r, hr, hop⟩
  exact exec_idempotentRead i (hop ▸ read_opcode_ge r hr) s

end Sys2Proof.Machine
end

section
/-! PROOFS. The family of spec/30_encoding.md: decode and encode are inverse, a word selects at most one row of the opcode
table, an illegal word or operand changes nothing but its flag and the response.

`RowInverts` says once that a row loses no bit of its operand; the rest goes through the rows' opcodes, which are distinct. -/

namespace Sys2Proof

/-! ### A row is its opcode -/

/-- Two rows of the table with one opcode are one row. -/
theorem row_eq_of_op {r q : OpRow} (hr : r ∈ opcodeTable) (hq : q ∈ opcodeTable) (h : r.op = q.op) : r = q :=
  List.inj_on_of_nodup_map opcodeTable_ops_nodup hr hq h

/-- `CW and mask = match` (R56), by the word's fields. -/
theorem masked_eq_pattern_iff (r : OpRow) (cw : CmdWord) :
    cw &&& r.mask = r.pattern ↔ opOf cw = r.op ∧ argOf cw &&& r.format.unused = 0 := by
  rw [← selectedBy_iff, OpRow.selectedBy, beq_iff_eq]

/-- A non-zero unused operand bit keeps the word of a listed opcode out of every row (R56). -/
theorem no_row_of_stray_bit {cw : CmdWord} {r : OpRow} (hr : r ∈ opcodeTable) (hop : opOf cw = r.op)
    (hstray : argOf cw &&& r.format.unused ≠ 0) : ∀ q ∈ opcodeTable, q.selectedBy cw = false := by
  intro q hq
  rw [Bool.eq_false_iff]
  intro hsel
  obtain ⟨hqop, hqarg⟩ := (selectedBy_iff q cw).mp hsel
  obtain rfl := row_eq_of_op hr hq (hop.symm.trans hqop)
  exact hstray hqarg

/-! ### What decoding answers -/

/-- A word that decodes selects a row, and decodes to what that row builds. -/
theorem row_of_decode {cw : CmdWord} {i : Instr} (h : decode cw = .ok i) :
    ∃ r ∈ opcodeTable, r.selectedBy cw = true ∧ r.build (argOf cw) = i := by
  unfold decode at h
  split at h
  next r hfind =>
    have hsel := List.find?_some hfind
    exact ⟨r, List.mem_of_find?_eq_some hfind, hsel, Except.ok.inj h⟩
  next => split at h <;> cases h

/-- A word that selects no row is refused, and the error carries its opcode (R61). -/
theorem decode_of_no_row {cw : CmdWord} (h : ∀ r ∈ opcodeTable, r.selectedBy cw = false) :
    ∃ e, decode cw = .error e ∧ e.op = opOf cw := by
  have hfind : opcodeTable.find? (fun r => r.selectedBy cw) = none :=
    List.find?_eq_none.mpr fun r hr => by simp [h r hr]
  unfold decode
  rw [hfind]
  dsimp only
  split
  · exact ⟨_, rfl, rfl⟩
  · exact ⟨_, rfl, rfl⟩

/-- The row found by its opcode decodes the words whose operand respects its format. -/
theorem decode_mkWord {op : Byte} {arg : Arg} {m : String} {f : Format} {build : Arg → Instr}
    (hrow : opcodeTable.find? (fun r => r.op == op) = some ⟨op, m, f, build⟩) (hu : arg &&& f.unused = 0) :
    decode (mkWord op arg) = .ok (build arg) := by
  have hmem := List.mem_of_find?_eq_some hrow
  simpa using decode_of_row _ hmem (mkWord op arg) ((selectedBy_mkWord _ op arg).mpr ⟨rfl, hu⟩)

/-- A row of format N decodes its opcode with operand 0. -/
theorem decode_bare {op : Byte} {m : String} {build : Arg → Instr}
    (hrow : opcodeTable.find? (fun r => r.op == op) = some ⟨op, m, .N, build⟩) : decode (mkWord op 0) = .ok (build 0) :=
  decode_mkWord hrow (BitVec.zero_and)

/-! ### Decoding an encoded command -/

/-- Settles O1: each command's word has its row's opcode, and its row reads back the fields the encoder wrote. -/
theorem decodeInvertsEncode : Obligations.DecodeInvertsEncode := by
  intro i
  cases i with
  | clrstat v | encPre v =>
    exact (decode_mkWord rfl (setWidth_and_high 16 v)).trans (by rw [fieldC16, extract_setWidth 16 (by decide)])
  | encByte v | cdrfAmp v | cdrxAmp v =>
    exact (decode_mkWord rfl (setWidth_and_high 8 v)).trans (by rw [fieldByte, extract_setWidth 8 (by decide)])
  | encBit b | encRaw b | demLevel b | scnBit b | cdrfSample b | cdrxSample b =>
    exact (decode_mkWord rfl (argBit_unused b)).trans (by rw [fieldBit_argBit])
  | encStart v tb =>
    exact (decode_mkWord rfl (argStart_unused v tb)).trans (by rw [fieldScheme_argStart, fieldTb_argStart])
  | scnStart v => exact (decode_mkWord rfl (argScheme_unused v)).trans (by rw [fieldScheme_argScheme])
  | wrAlpha num den | wrKi num den | wrKp num den | wrIntegMax num den =>
    exact (decode_mkWord rfl (argRat_unused num den)).trans (by rw [fieldNum_argRat, fieldLow32_argRat])
  | wrAccSize v | wrTbC v =>
    exact (decode_mkWord rfl (setWidth_and_high 32 v)).trans (by rw [fieldLow32, extract_setWidth 32 (by decide)])
  | wrChain v =>
    exact (decode_mkWord rfl (setWidth_and_high 3 v)).trans (by rw [fieldU3, extract_setWidth 3 (by decide)])
  | wrMarker v => exact decode_mkWord rfl BitVec.and_zero
  | wrMarkerLen v =>
    exact (decode_mkWord rfl (setWidth_and_high 7 v)).trans (by rw [fieldU7, extract_setWidth 7 (by decide)])
  | _ => exact (decode_bare rfl).trans rfl

/-- Settles O5: each of the words is the word of its command. -/
theorem specWordsDecode : Obligations.SpecWordsDecode :=
  ⟨decodeInvertsEncode (.encStart .mfm 1), decodeInvertsEncode (.encByte 0xA1), decodeInvertsEncode (.scnStart .mfm),
    decodeInvertsEncode (.cdrfAmp 0xFF), decodeInvertsEncode (.wrAlpha 99 1000),
    decodeInvertsEncode (.wrKp 0xFFFFFFFF 4), decodeInvertsEncode (.wrChain 5), decodeInvertsEncode .rdAccSize⟩

/-! ### An operand with no stray bit is what the encoder writes from its fields -/

/-- An operand whose bits from `n` on are 0 is its low field, widened. -/
theorem setWidth_extract {n : Nat} {arg : Arg} (h : arg &&& (BitVec.allOnes 64 <<< n) = 0) :
    (arg.extractLsb' 0 n).setWidth 64 = arg := by
  apply BitVec.eq_of_getLsbD_eq; intro i hi
  by_cases hn : i < n
  · simp [hi, hn]
  · have hmask : (BitVec.allOnes 64 <<< n).getLsbD i = true := by
      rw [BitVec.getLsbD_shiftLeft, BitVec.getLsbD_allOnes]
      simp only [hi, hn, decide_true, decide_false, Bool.not_false, Bool.and_self, Bool.true_and, decide_eq_true_eq]
      omega
    have hbit : arg.getLsbD i = false := by
      simpa only [BitVec.getLsbD_and, hmask, Bool.and_true, BitVec.ofNat_eq_ofNat, BitVec.getLsbD_zero]
        using congrArg (·.getLsbD i) h
    rw [hbit, BitVec.getLsbD_setWidth, BitVec.getLsbD_extractLsb', decide_eq_false hn, Bool.false_and, Bool.and_false]

theorem argBit_fieldBit {arg : Arg} (h : arg &&& Format.B1.unused = 0) : argBit (fieldBit arg) = arg := by
  have hfield : BitVec.ofBool (fieldBit arg) = arg.extractLsb' 0 1 := by
    apply BitVec.eq_of_getLsbD_eq; intro i hi
    obtain rfl : i = 0 := by omega
    simp [fieldBit]
  rw [argBit, hfield]
  exact setWidth_extract (n := 1) h

/-- The two-bit code of the scheme a code names is that code. -/
theorem code_schemeOf (v : BitVec 2) : (schemeOf v).code = v := by revert v; decide

theorem argScheme_fieldScheme {arg : Arg} (h : arg &&& Format.S2.unused = 0) : argScheme (fieldScheme arg) = arg := by
  rw [argScheme, fieldScheme, code_schemeOf]
  exact setWidth_extract (n := 2) h

theorem argRat_fields (arg : Arg) : argRat (fieldNum arg) (fieldLow32 arg) = arg := by
  apply BitVec.eq_of_getLsbD_eq; intro i hi
  rw [argRat, BitVec.getLsbD_append]
  by_cases hlow : i < 32
  · simp [fieldLow32, hlow]
  · have hnum : i - 32 < 32 := by omega
    have hsum : 32 + (i - 32) = i := by omega
    simp [fieldNum, hlow, hnum, hsum]

/-- The bits format ES does not use: 15..2 and 63..48 (R58). -/
theorem unused_ES_getLsbD {i : Nat} (hi : i < 64) :
    Format.ES.unused.getLsbD i = (decide (2 ≤ i ∧ i < 16) || decide (48 ≤ i)) :=
  (by decide : ∀ j : Fin 64, Format.ES.unused.getLsbD j = (decide (2 ≤ j.val ∧ j.val < 16) || decide (48 ≤ j.val))) ⟨i, hi⟩

theorem argStart_fields {arg : Arg} (h : arg &&& Format.ES.unused = 0) :
    argStart (fieldScheme arg) (fieldTb arg) = arg := by
  apply BitVec.eq_of_getLsbD_eq; intro i hi
  have hbit : (arg.getLsbD i && Format.ES.unused.getLsbD i) = false := by
    simpa using congrArg (·.getLsbD i) h
  rw [unused_ES_getLsbD hi] at hbit
  rw [argStart_getLsbD, fieldScheme, code_schemeOf, fieldTb]
  by_cases hscheme : i < 2
  · simp [hscheme]
  by_cases hgap : i < 16
  · have : 2 ≤ i := by omega
    simpa [hscheme, hgap, this] using hbit.symm
  by_cases htb : i < 48
  · have hfield : i - 16 < 32 := by omega
    have hsum : 16 + (i - 16) = i := by omega
    simp [hscheme, hgap, hfield, hsum]
  · have hfield : ¬ i - 16 < 32 := by omega
    have htop : 48 ≤ i := by omega
    simpa [hscheme, hgap, hfield, htop] using hbit.symm

/-! ### Encoding a decoded word -/

/-- The row loses nothing: an operand that respects its format is the operand of the command it builds. -/
def RowInverts (r : OpRow) : Prop := ∀ arg, arg &&& r.format.unused = 0 → encode (r.build arg) = mkWord r.op arg

/-- A row of format N only takes operand 0. -/
theorem rowInverts_bare {r : OpRow} (h : r.format = .N ∧ encode (r.build 0) = mkWord r.op 0) : RowInverts r := by
  obtain ⟨hf, henc⟩ := h
  intro arg hu
  obtain rfl : arg = 0 := by
    rw [hf] at hu
    exact (BitVec.and_allOnes (x := arg)).symm.trans hu
  exact henc

/-- A row whose command has the operand `enc arg`, where that is `arg` again, inverts. -/
theorem rowInverts_of_fields {r : OpRow} {enc : Arg → Arg} (henc : ∀ arg, encode (r.build arg) = mkWord r.op (enc arg))
    (hfields : ∀ {arg : Arg}, arg &&& r.format.unused = 0 → enc arg = arg) : RowInverts r := fun arg hu => by
  rw [henc, hfields hu]

theorem sysEncRows_invert : ∀ r ∈ sysEncRows, RowInverts r := by
  simp only [sysEncRows, List.forall_mem_cons]
  exact ⟨
    rowInverts_bare ⟨rfl, rfl⟩,
    rowInverts_bare ⟨rfl, rfl⟩,
    rowInverts_of_fields (fun _ => rfl) (setWidth_extract (n := 16)),
    rowInverts_of_fields (fun _ => rfl) argStart_fields,
    rowInverts_of_fields (fun _ => rfl) (setWidth_extract (n := 8)),
    rowInverts_of_fields (fun _ => rfl) argBit_fieldBit,
    rowInverts_of_fields (fun _ => rfl) argBit_fieldBit,
    rowInverts_bare ⟨rfl, rfl⟩,
    rowInverts_bare ⟨rfl, rfl⟩,
    rowInverts_of_fields (fun _ => rfl) (setWidth_extract (n := 16)),
    nofun⟩

theorem decodeRows_invert : ∀ r ∈ decodeRows, RowInverts r := by
  simp only [decodeRows, List.forall_mem_cons]
  exact ⟨
    rowInverts_bare ⟨rfl, rfl⟩,
    rowInverts_of_fields (fun _ => rfl) argBit_fieldBit,
    rowInverts_of_fields (fun _ => rfl) argScheme_fieldScheme,
    rowInverts_of_fields (fun _ => rfl) argBit_fieldBit,
    rowInverts_bare ⟨rfl, rfl⟩,
    rowInverts_bare ⟨rfl, rfl⟩,
    rowInverts_of_fields (fun _ => rfl) argBit_fieldBit,
    rowInverts_of_fields (fun _ => rfl) (setWidth_extract (n := 8)),
    rowInverts_bare ⟨rfl, rfl⟩,
    rowInverts_of_fields (fun _ => rfl) argBit_fieldBit,
    rowInverts_of_fields (fun _ => rfl) (setWidth_extract (n := 8)),
    nofun⟩

theorem writeRows_invert : ∀ r ∈ writeRows, RowInverts r := by
  simp only [writeRows, List.forall_mem_cons]
  exact ⟨
    rowInverts_of_fields (fun _ => rfl) fun _ => argRat_fields _,
    rowInverts_of_fields (fun _ => rfl) fun _ => argRat_fields _,
    rowInverts_of_fields (fun _ => rfl) fun _ => argRat_fields _,
    rowInverts_of_fields (fun _ => rfl) fun _ => argRat_fields _,
    rowInverts_of_fields (fun _ => rfl) (setWidth_extract (n := 32)),
    rowInverts_of_fields (fun _ => rfl) (setWidth_extract (n := 32)),
    rowInverts_of_fields (fun _ => rfl) (setWidth_extract (n := 3)),
    fun _ _ => rfl,
    rowInverts_of_fields (fun _ => rfl) (setWidth_extract (n := 7)),
    nofun⟩

/-- Every `RD` row is of format N. -/
theorem readRows_invert : ∀ r ∈ readLowRows ++ readHighRows, RowInverts r := fun r hr =>
  rowInverts_bare ((by decide : ∀ r ∈ readLowRows ++ readHighRows,
    r.format = .N ∧ encode (r.build 0) = mkWord r.op 0) r hr)

theorem opcodeTable_inverts : ∀ r ∈ opcodeTable, RowInverts r := by
  intro r hr
  simp only [opcodeTable, List.append_assoc, List.mem_append] at hr
  obtain hr | hr | hr | hr := hr
  · exact sysEncRows_invert r hr
  · exact decodeRows_invert r hr
  · exact writeRows_invert r hr
  · exact readRows_invert r (List.mem_append.mpr hr)

/-- Settles O2: the row a word selects fixes its opcode and its unused bits, and loses no other bit. -/
theorem encodeInvertsDecode : Obligations.EncodeInvertsDecode := by
  intro cw i h
  obtain ⟨r, hr, hsel, rfl⟩ := row_of_decode h
  obtain ⟨hop, hunused⟩ := (selectedBy_iff r cw).mp hsel
  calc encode (r.build (argOf cw)) = mkWord r.op (argOf cw) := opcodeTable_inverts r hr (argOf cw) hunused
    _ = cw := by rw [← hop, mkWord_fields]

/-! ### One row or none -/

/-- Settles O3: a word that matches two rows would give them one opcode, and no two rows share one. -/
theorem decodingFindsTheOneRow : Obligations.DecodingFindsTheOneRow := by
  refine ⟨fun cw r hr h => ?_, fun cw r hr hop hstray q hq hmatch => ?_, ?_⟩
  · exact decode_of_row r hr cw (beq_iff_eq.mpr h)
  · exact absurd (beq_iff_eq.mpr hmatch) (Bool.eq_false_iff.mp (no_row_of_stray_bit hr hop hstray q hq))
  · refine (List.pairwise_map.mp opcodeTable_ops_nodup).imp fun {r q} hne cw hboth => hne ?_
    obtain ⟨hr, hq⟩ := hboth
    exact ((masked_eq_pattern_iff r cw).mp hr).1.symm.trans ((masked_eq_pattern_iff q cw).mp hq).1

/-- The opcodes of the table, block by block (R60). -/
theorem opcodeTable_ops : opcodeTable.map (fun r => r.op.toNat) =
    List.range' 0x00 3 ++ List.range' 0x10 7 ++ List.range' 0x20 2 ++ List.range' 0x28 3 ++ List.range' 0x30 3 ++
    List.range' 0x38 3 ++ List.range' 0x40 9 ++ List.range' 0x80 9 ++ List.range' 0x90 21 ++ List.range' 0xB0 14 ++
    List.range' 0xC0 6 := by decide

/-- An opcode is in no row exactly when its number is in none of the blocks. -/
theorem reserved_iff (op : Byte) :
    (∀ r ∈ opcodeTable, r.op ≠ op) ↔ op.toNat ∉ opcodeTable.map (fun r => r.op.toNat) := by
  simp only [List.mem_map, not_exists, not_and, ne_eq, BitVec.toNat_inj]

namespace Machine

/-- Everything IllegalCommand does to the state it is raised in (R61). -/
theorem raise_illegalCommand (s : State) (op : Byte) : raise .illegalCommand op.toNat s =
    { s with status := s.status ||| 0x40, response := some ⟨0x10, op.setWidth 64⟩ } := by
  rw [raise_eq, ← valueBits_eq]
  rfl

/-- Everything BadOperand does to the state it is raised in (R59). -/
theorem raise_badOperand (s : State) (op : Byte) : raise .badOperand op.toNat s =
    ({ s with status := s.status ||| 0x80 } : State).answered 0x11 (op.setWidth 64) := by
  rw [raise_eq, ← valueBits_eq]
  rfl

/-- Settles O4: a word that selects no row is refused with its opcode, and the opcodes left over are the gaps between the
table's blocks. -/
theorem illegalWordChangesNothingElse : Obligations.IllegalWordChangesNothingElse := by
  refine ⟨fun s cw rest hin hnone => ?_, fun op => ?_, fun cw r hr => no_row_of_stray_bit hr, fun cw => ?_⟩
  · obtain ⟨e, hdecode, hop⟩ := decode_of_no_row hnone
    rw [step_of_decode_error hin hdecode, hop, raise_illegalCommand]
  · have hlt := op.isLt
    simp only [reserved_iff, opcodeTable_ops, List.mem_append, List.mem_range'_1]
    omega
  · by_cases h : ∃ r ∈ opcodeTable, r.selectedBy cw = true
    · obtain ⟨r, hr, hsel⟩ := h
      refine .inl ⟨r, hr, hsel, fun q _ hq => ?_⟩
      rw [← ((selectedBy_iff q cw).mp hq).1, ((selectedBy_iff r cw).mp hsel).1]
    · exact .inr fun r hr => Bool.eq_false_iff.mpr fun hsel => h ⟨r, hr, hsel⟩

/-! ### Illegal operands -/

/-- The check of WR.INTEG_MAX is the one R59 names: the sign bit is the sign. -/
theorem legalIntegMax_eq_wf (num den : BitVec 32) : legalIntegMax ⟨num, den⟩ = (Instr.wrIntegMax num den).wf := by
  rw [legalIntegMax, Instr.wf, BitVec.msb_eq_toInt, ← decide_not]
  simp only [not_lt]

/-- The check of WR.MARKER_LEN is the one R59 names. -/
theorem legalMarkerLen_eq_wf (v : BitVec 7) : legalMarkerLen v = (Instr.wrMarkerLen v).wf := by
  have h : 1 ≤ v.toNat ↔ v ≠ 0 := by bv_omega
  rw [Bool.eq_iff_iff]
  simp [legalMarkerLen, Instr.wf, h]

/-- A write of an illegal value raises BadOperand. -/
theorem writeReg_illegal {op : Nat} {legal : Bool} (cfg : CfgRegs) (s : State) (h : legal = false) :
    writeReg op legal cfg s = .next (raise .badOperand op s) := by rw [h]; rfl

/-- An ill-formed command raises BadOperand with its opcode, in the state it began in. -/
theorem exec_of_not_wf (i : Instr) (s : State) (h : i.wf = false) :
    exec i s = .next (raise .badOperand (opOf (encode i)).toNat s) := by
  cases i with
  | encStart v tb =>
    have hl : legalNonzero tb = false := h
    simp only [exec, execEncStart, hl, encode, opOf_mkWord]; rfl
  | wrAlpha num den | wrKi num den | wrKp num den | wrAccSize v | wrTbC v | wrChain v =>
    rw [encode, opOf_mkWord]
    exact writeReg_illegal _ s h
  | wrIntegMax num den =>
    rw [encode, opOf_mkWord]
    exact writeReg_illegal _ s ((legalIntegMax_eq_wf num den).trans h)
  | wrMarkerLen v =>
    rw [encode, opOf_mkWord]
    exact writeReg_illegal _ s ((legalMarkerLen_eq_wf v).trans h)
  | _ => cases h

/-- Settles O48: an ill-formed command raises BadOperand where it began, and `Instr.wf` refuses what R59 lists. -/
theorem illegalOperandChangesNothingElse : Obligations.IllegalOperandChangesNothingElse := by
  refine ⟨fun s i h => ?_, fun i => ?_⟩
  · rw [exec_of_not_wf i s h, raise_badOperand]
  · cases i with
    | wrIntegMax num den => simp [Instr.wf, BitVec.msb_eq_toInt, imp_iff_not_or]
    | wrChain v =>
      have hlow : v.extractLsb' 0 2 = 3 ↔ v.toNat % 4 = 3 := by simp [BitVec.toNat_eq]
      simpa [Instr.wf] using hlow
    | wrMarkerLen v => simp [Instr.wf, imp_iff_not_or]
    | _ => simp [Instr.wf]

end Machine
end Sys2Proof
end

section
/-! PROOFS. The family of spec/40_line_encoders.md: the tables, the ENC commands, the encoded stream, the run lengths,
and what DEM makes of the stream.

Each command is one of the forms of `exec_form`, so a running ENC leaves `sentData`, `flushed` or `sentCode`. The three
run-length statements are one induction, `gaps_leRun`: the encoder's state bounds the zeros since the last 1. -/

namespace Sys2Proof.Machine

/-! ### The ENC commands of a running unit -/

/-- Settles O11: every row by evaluating the encoder's step. -/
theorem lineEncoderTables : Obligations.LineEncoderTables :=
  ⟨fun _ _ => rfl, fun _ _ => rfl, fun _ => rfl, fun _ => rfl, fun _ _ => rfl, fun _ =>
    ⟨rfl, rfl, rfl, rfl, rfl, rfl, rfl, rfl, rfl, rfl, rfl, rfl⟩⟩

/-- Settles O12: an operand other than 0 is legal, and ENC is replaced whole. -/
theorem encStartBeginsStream : Obligations.EncStartBeginsStream := fun s v tb h => by
  have hlegal : legalNonzero tb = true := by simpa [legalNonzero] using h
  simp only [exec, execEncStart, hlegal]; rfl

theorem encCommand_run {s : State} (h : s.enc.run = true) (f : State → State) :
    encCommand f s = .next ((f s).answered 0 0) := by rw [encCommand_eq, if_pos h]

theorem bits_singleton (b : Byte) : bits [b] = octetBits b := List.append_nil _

theorem exec_encByte_run {s : State} (h : s.enc.run = true) (b : Byte) :
    exec (.encByte b) s = .next ((s.sentData (bits [b])).answered 0 0) := by
  rw [encByte_form, encCommand_run h, bits_singleton]

theorem exec_encFlush_run {s : State} (h : s.enc.run = true) : exec .encFlush s = .next (s.flushed.answered 0 0) := by
  rw [encFlush_form, encCommand_run h, sentCode_nil]

theorem exec_encSync_run {s : State} (h : s.enc.run = true) :
    exec .encSync s = .next ((s.flushed.sentCode Config.syncMarker).answered 0 0) := by
  rw [encSync_form, encCommand_run h]

/-- Settles O13: the forms of the three data commands. -/
theorem encDataCommandsEncode : Obligations.EncDataCommandsEncode :=
  ⟨fun s d h => by rw [encBit_form, encCommand_run h], fun _ b h => exec_encByte_run h b,
    fun s n h => by rw [encPre_form, encCommand_run h]; rfl⟩

/-! ### The flush -/

theorem flushed_rll27 {s : State} (h : s.enc.scheme = .rll27) :
    s.flushed = { s with enc := { s.enc with rllState := .idle } }.sentCode (flushCode s.enc.rllState) := if_pos h

theorem flushed_other {s : State} (h : s.enc.scheme ≠ .rll27) : s.flushed = s := if_neg h

/-- Code bits are named by their numbers. -/
theorem map_toNat_inj {a b : List Bit} (h : a.map Bool.toNat = b.map Bool.toNat) : a = b :=
  List.map_injective_iff.mpr (Function.LeftInverse.injective Bool.ofNat_toNat) h

/-- Settles O14: the listed codeword of each pending state is the one `flushCode` gives. -/
theorem encFlushCompletesPattern : Obligations.EncFlushCompletesPattern := by
  refine ⟨fun s hrun hs => ?_, fun s code hrun hs hmem => ?_⟩
  · rw [exec_encFlush_run hrun, flushed_other hs]
  · have hcode : code = flushCode s.enc.rllState := by
      apply map_toNat_inj
      cases hst : s.enc.rllState <;> simpa [hst, flushCode] using hmem
    rw [exec_encFlush_run hrun, flushed_rll27 hs, hcode]

/-- A flush leaves what only data bits change (spec/40_line_encoders.md R79). -/
theorem flushed_keeps (s : State) : s.flushed.enc.mfmPrev = s.enc.mfmPrev ∧ s.flushed.enc.dcnt = s.enc.dcnt := by
  by_cases h : s.enc.scheme = .rll27
  · rw [flushed_rll27 h]; exact ⟨rfl, rfl⟩
  · rw [flushed_other h]; exact ⟨rfl, rfl⟩

/-- The marker's five 1 bits toggle the level five times. -/
theorem levelAfter_syncMarker (lvl : Bit) : levelAfter lvl Config.syncMarker = !lvl := by cases lvl <;> rfl

/-- Settles O15: after the flush the code bits go to the modulator alone. -/
theorem encRawAndSyncBypassTheEncoder : Obligations.EncRawAndSyncBypassTheEncoder := by
  refine ⟨fun s c h => ?_, fun s h => exec_encSync_run h, fun s t ht h => ?_⟩
  · rw [encRaw_form, encCommand_run h]
  · rw [exec_encSync_run h] at ht
    cases ht
    obtain ⟨hprev, hdcnt⟩ := flushed_keeps s
    exact ⟨hprev, hdcnt, levelAfter_syncMarker _⟩

/-! ### The encoded stream -/

@[simp] theorem length_bits (os : List Byte) : (bits os).length = 8 * os.length := by
  have hoctet : ∀ b, (octetBits b).length = 8 := fun _ => rfl
  simp [bits, List.length_flatMap, hoctet, Nat.mul_comm]

theorem bits_cons (b : Byte) (os : List Byte) : bits (b :: os) = bits [b] ++ bits os := by
  rw [bits_singleton]; rfl

/-- A command that answers `(OK, 0)` again leaves the response as it is. -/
theorem answered_self {s : State} (h : s.response = some ⟨0, 0⟩) : s.answered 0 0 = s := by
  rw [State.answered, ← h]

/-- The octets of a stream, once ENC has answered `(OK, 0)`. -/
theorem execAll_encBytes (os : List Byte) {s : State} (hrun : s.enc.run = true) (hok : s.response = some ⟨0, 0⟩) :
    execAll (os.map .encByte) s = .next (s.sentData (bits os)) := by
  induction os generalizing s with
  | nil => rw [bits, List.flatMap_nil, sentData_nil]; rfl
  | cons b os ih =>
    have hb : exec (.encByte b) s = .next (s.sentData (bits [b])) := by
      rw [exec_encByte_run hrun]; exact congrArg _ (answered_self hok)
    rw [List.map_cons, execAll_cons hb, ih (s := s.sentData (bits [b])) hrun hok, sentData_append, ← bits_cons]

/-- Data bits and then a flush, in a unit whose RLL27 machine is at rest unless it is in use (spec/10_state.md R20). -/
theorem sentData_flushed {s : State} (h : s.enc.scheme ≠ .rll27 → s.enc.rllState = .idle) (ds : List Bit) :
    (s.sentData ds).flushed =
      let r := leRun s.enc.scheme ⟨s.enc.mfmPrev, s.enc.rllState⟩ ds
      { s with enc := { s.enc with mfmPrev := r.1.prev, rllState := .idle, dcnt := s.enc.dcnt + ds.length } }.sentCode
        (r.2 ++ flushCode r.1.rll) := by
  by_cases hs : s.enc.scheme = .rll27
  · rw [flushed_rll27 (s := s.sentData ds) hs, ← sentCode_append]; rfl
  · have hidle := ((leRun_unused s.enc.scheme ⟨s.enc.mfmPrev, s.enc.rllState⟩ ds).2 hs).trans (h hs)
    rw [flushed_other (s := s.sentData ds) hs]
    simp only [State.sentData, hidle, flushCode, List.append_nil]

/-- The state after a whole octet stream: its code bits sent by a unit that holds nothing back. -/
def State.streamed (s : State) (v : Scheme) (tb : BitVec 32) (os : List Byte) : State :=
  ({ s with enc := ⟨true, v, tb, (leRun v .start (bits os)).1.prev, .idle, false, 8 * os.length, 0⟩ }.sentCode
    (bitstream v os)).answered 0 0

theorem streamed_level (s : State) (v : Scheme) (tb : BitVec 32) (os : List Byte) :
    (s.streamed v tb os).ports.level = s.ports.level ++ modulate (bitstream v os) tb.toNat := rfl

/-- Everything ENC.START, the octets and ENC.FLUSH do. -/
theorem execAll_encStream (s : State) (v : Scheme) {tb : BitVec 32} (htb : tb ≠ 0) (os : List Byte) :
    execAll (.encStart v tb :: os.map .encByte ++ [.encFlush]) s = .next (s.streamed v tb os) := by
  have hbytes := execAll_encBytes os
    (s := { s with enc := ⟨true, v, tb, false, .idle, false, 0, 0⟩ }.answered 0 0) rfl rfl
  rw [List.cons_append, execAll_cons (encStartBeginsStream s v tb htb), execAll_append _ _ _ _ hbytes,
    execAll_cons (exec_encFlush_run rfl), sentData_flushed fun _ => rfl, length_bits]
  simp only [State.answered, Nat.zero_add]; rfl

/-! ### The lengths of a stream -/

theorem length_leRun {v : Scheme} {n : Nat} (hstep : ∀ st d, (leStep v st d).2.length = n) (st : LineState)
    (ds : List Bit) : (leRun v st ds).2.length = n * ds.length := by
  induction ds generalizing st with
  | nil => rfl
  | cons d ds ih => rw [leRun, List.length_append, hstep, ih, List.length_cons]; ring

theorem length_bitstream {v : Scheme} {n : Nat} (hv : v ≠ .rll27) (hstep : ∀ st d, (leStep v st d).2.length = n)
    (os : List Byte) : (bitstream v os).length = n * (8 * os.length) := by
  have hidle : (leRun v .start (bits os)).1.rll = .idle := (leRun_unused v .start (bits os)).2 hv
  rw [bitstream, hidle, flushCode, List.append_nil, length_leRun hstep, length_bits]

/-- The number of data bits a pending state stands for (spec/40_line_encoders.md R78). -/
def RllState.pending : RllState → Nat
  | .idle => 0
  | .one | .zero => 1
  | .zeroOne | .zeroZero => 2
  | .zeroZeroOne => 3

/-- A codeword is twice as long as its pattern: one step neither loses nor invents a code bit. -/
theorem length_leRll (st : RllState) (d : Bit) :
    (leRll st d).2.length + 2 * (leRll st d).1.pending = 2 * (st.pending + 1) := by
  cases st <;> cases d <;> rfl

theorem length_leRun_rll27 (st : LineState) (ds : List Bit) :
    (leRun .rll27 st ds).2.length + 2 * (leRun .rll27 st ds).1.rll.pending = 2 * (st.rll.pending + ds.length) := by
  induction ds generalizing st with
  | nil => simp [leRun]
  | cons d ds ih =>
    have hstep := length_leRll st.rll d
    have hrest := ih (leStep .rll27 st d).1
    simp only [leRun, leStep, List.length_append, List.length_cons] at hrest ⊢
    omega

theorem length_flushCode (st : RllState) : (flushCode st).length = 2 * (st.pending + flushZeros st) := by
  cases st <;> rfl

theorem leRun_flushZeros (st : LineState) :
    (leRun .rll27 st (List.replicate (flushZeros st.rll) false)).1.rll = .idle := by
  obtain ⟨prev, rll⟩ := st
  cases rll <;> rfl

/-- Settles O16: the closed form of the run, and the lengths from the length of each step's output. -/
theorem encodedStreamIsBitstream : Obligations.EncodedStreamIsBitstream := by
  refine ⟨fun s v tb os htb => ?_, fun os => ⟨?_, ?_, ?_⟩, fun os => ⟨_, ?_, rfl, ?_, ?_⟩⟩
  · exact ⟨_, execAll_encStream s v htb os, rfl, rfl, Nat.zero_add _, rfl, rfl, rfl, rfl, rfl, rfl⟩
  · rw [length_bitstream (n := 1) (by decide) fun _ _ => rfl, Nat.one_mul]
  · rw [length_bitstream (n := 2) (by decide) fun _ _ => rfl]; omega
  · rw [length_bitstream (n := 2) (by decide) fun _ _ => rfl]; omega
  · cases (leRun .rll27 .start (bits os)).1.rll <;> decide
  · rw [leRun_append]; exact leRun_flushZeros _
  · have hrun := length_leRun_rll27 .start (bits os)
    have hidle : LineState.start.rll.pending = 0 := rfl
    rw [length_bits, hidle] at hrun
    rw [bitstream, List.length_append, length_flushCode]
    omega

/-! ### Run lengths -/

/-- The zeros since the last 1 of a stream, `none` while it holds no 1; the first argument is the count before it. -/
def zerosSince : Option Nat → List Bit → Option Nat
  | g, [] => g
  | g, false :: cs => zerosSince (g.map (· + 1)) cs
  | _, true :: cs => zerosSince (some 0) cs

/-- Every gap that a 1 of the stream closes holds `lo` to `hi` zeros; the first argument is the gap open before it. -/
def gapsWithin (lo hi : Nat) : Option Nat → List Bit → Bool
  | _, [] => true
  | g, false :: cs => gapsWithin lo hi (g.map (· + 1)) cs
  | g, true :: cs => g.all (fun n => decide (lo ≤ n ∧ n ≤ hi)) && gapsWithin lo hi (some 0) cs

section
variable {lo hi : Nat}

theorem zerosSince_append (g : Option Nat) (a b : List Bit) :
    zerosSince g (a ++ b) = zerosSince (zerosSince g a) b := by
  induction a generalizing g with
  | nil => rfl
  | cons c cs ih => cases c <;> exact ih _

theorem gapsWithin_append (g : Option Nat) (a b : List Bit) :
    gapsWithin lo hi g (a ++ b) = (gapsWithin lo hi g a && gapsWithin lo hi (zerosSince g a) b) := by
  induction a generalizing g with
  | nil => rfl
  | cons c cs ih => cases c <;> simp [gapsWithin, zerosSince, ih, Bool.and_assoc]

theorem zerosSince_replicate (m n : Nat) : zerosSince (some m) (List.replicate n false) = some (m + n) := by
  induction n generalizing m with
  | zero => rfl
  | succ n ih => rw [List.replicate_succ, zerosSince, Option.map_some, ih, Nat.add_right_comm, Nat.add_assoc]

/-- Two 1s with `n` zeros between them stand in the stream only if `n` is within the bounds. -/
theorem gap_of_gapsWithin {g : Option Nat} {cs : List Bit} (h : gapsWithin lo hi g cs = true) {n : Nat}
    (hn : true :: (List.replicate n false ++ [true]) <:+: cs) : lo ≤ n ∧ n ≤ hi := by
  obtain ⟨a, b, rfl⟩ := hn
  simp only [gapsWithin_append, gapsWithin, zerosSince_replicate, Bool.and_eq_true] at h
  obtain ⟨⟨_, _, _, hgap, _⟩, _⟩ := h
  simpa using hgap

/-- If the encoder's state bounds the open gap at every step, no gap of its stream leaves the bounds. -/
theorem gaps_leRun {v : Scheme} {bound : LineState → Option Nat → Prop}
    (hstep : ∀ st g d, bound st g → gapsWithin lo hi g (leStep v st d).2 = true ∧
      bound (leStep v st d).1 (zerosSince g (leStep v st d).2))
    {st : LineState} {g : Option Nat} (h : bound st g) (ds : List Bit) :
    gapsWithin lo hi g (leRun v st ds).2 = true ∧ bound (leRun v st ds).1 (zerosSince g (leRun v st ds).2) := by
  induction ds generalizing st g with
  | nil => exact ⟨rfl, h⟩
  | cons d ds ih =>
    obtain ⟨hgaps, hbound⟩ := hstep st g d h
    obtain ⟨hgaps', hbound'⟩ := ih hbound
    rw [leRun, gapsWithin_append, zerosSince_append, hgaps]
    exact ⟨hgaps', hbound'⟩

end

/-- Dropping the code bits of the first `k` data bits leaves the stream of the rest. -/
theorem drop_leRun {v : Scheme} {n : Nat} (hstep : ∀ st d, (leStep v st d).2.length = n) (st : LineState)
    (ds : List Bit) (k : Nat) :
    (leRun v st ds).2.drop (n * k) = (leRun v (leRun v st (ds.take k)).1 (ds.drop k)).2 := by
  induction k generalizing st ds with
  | zero => rfl
  | succ k ih =>
    cases ds with
    | nil => simp [leRun]
    | cons d ds => rw [leRun, Nat.mul_succ, Nat.add_comm, ← List.drop_drop, List.drop_left' (hstep st d), ih]; rfl

/-! ### FM -/

/-- The zeros open after a clock bit and a data bit, and none at the start of a stream. -/
def fmOpen : List (Option Nat) := [none, some 0, some 1]

theorem leFm_gaps : ∀ (d : Bit), ∀ g ∈ fmOpen,
    gapsWithin 0 1 g (leFm d) = true ∧ zerosSince g (leFm d) ∈ fmOpen := by decide

/-- Settles O17: a step sends a clock 1 first, so at most the data bit stands open as a zero. -/
theorem fmRunLength : Obligations.FmRunLength := by
  intro st ds
  constructor
  · intro k hk
    rw [← List.head?_drop, drop_leRun (n := 2) fun _ _ => rfl]
    cases hds : ds.drop k with
    | nil =>
      have hlen := length_leRun (v := .fm) (n := 2) (fun _ _ => rfl) st ds
      have hle := List.drop_eq_nil_iff.mp hds
      omega
    | cons d rest => rfl
  · intro n hn
    have hgaps := (gaps_leRun (v := .fm) (bound := fun _ g => g ∈ fmOpen) (fun _ g d h => leFm_gaps d g h) (st := st)
      (g := none) (by decide) ds).1
    exact (gap_of_gapsWithin hgaps hn).2

/-! ### MFM -/

/-- The zeros open before a data bit: none after a data 1; after a data 0 one or two, by its clock bit. -/
def mfmOpen (prev : Bit) : List (Option Nat) := if prev then [none, some 0] else [none, some 1, some 2]

theorem leMfm_gaps : ∀ (prev d : Bit), ∀ g ∈ mfmOpen prev,
    gapsWithin 1 3 g (leMfm prev d).2 = true ∧ zerosSince g (leMfm prev d).2 ∈ mfmOpen (leMfm prev d).1 := by decide

/-- An MFM stream starts with a clock bit, and `1,0,0,0` from a clock bit on would be two data 0s whose second clock bit
is 0, against R75. -/
theorem mfm_never_starts_1000 (st : LineState) (ds : List Bit) :
    ¬[true, false, false, false] <+: (leRun .mfm st ds).2 := by
  intro h
  match ds with
  | [] => cases h.length_le
  | [_] => exact absurd h.length_le (by simp [leRun, leStep, leMfm])
  | d :: e :: ds => cases d <;> cases e <;> simp [leRun, leStep, leMfm] at h

/-- The marker holds `1,0,0,0` at an even and at an odd place, so one of the two begins at a clock bit. -/
theorem mfm_never_holds_syncMarker (st : LineState) (ds : List Bit) :
    ¬Config.syncMarker <:+: (leRun .mfm st ds).2 := by
  rintro ⟨a, b, h⟩
  have not_at_clock (k : Nat) : ¬[true, false, false, false] <+: (a ++ Config.syncMarker ++ b).drop (2 * k) := by
    rw [h, drop_leRun (n := 2) fun _ _ => rfl]; exact mfm_never_starts_1000 _ _
  have drop_marker (i : Nat) : (a ++ Config.syncMarker ++ b).drop (a.length + i) = (Config.syncMarker ++ b).drop i := by
    rw [List.append_assoc, List.drop_length_add_append]
  rcases Nat.even_or_odd' a.length with ⟨k, hk | hk⟩
  · apply not_at_clock k
    rw [← hk, ← Nat.add_zero a.length, drop_marker]
    exact ⟨_, rfl⟩
  · apply not_at_clock (k + 4)
    rw [show 2 * (k + 4) = a.length + 7 by omega, drop_marker]
    exact ⟨_, rfl⟩

/-- Settles O18, by the zeros `mfmOpen` bounds and by the place of the marker among clock and data bits. -/
theorem mfmRunLength : Obligations.MfmRunLength := by
  refine ⟨fun st ds n hn => ?_, mfm_never_holds_syncMarker, rfl⟩
  have hnone : none ∈ mfmOpen st.prev := by cases st.prev <;> decide
  have hgaps := (gaps_leRun (v := .mfm) (bound := fun st g => g ∈ mfmOpen st.prev)
    (fun st g d h => leMfm_gaps st.prev d g h) hnone ds).1
  exact gap_of_gapsWithin hgaps hn

/-! ### RLL27 -/

/-- The zeros open after a codeword, and none at the start of a stream. -/
def rllOpen : List (Option Nat) := [none, some 2, some 3]

/-- No code bits, or a codeword of R77, after which two or three zeros stand open again. -/
theorem codeword_gaps : ∀ cw ∈ [] :: rllTable.map Prod.snd, ∀ g ∈ rllOpen,
    gapsWithin 2 7 g cw = true ∧ zerosSince g cw ∈ rllOpen := by decide

/-- A step of RLL27 sends nothing or a whole codeword (spec/40_line_encoders.md R78). -/
theorem leRll_codeword (st : RllState) (d : Bit) : (leRll st d).2 ∈ [] :: rllTable.map Prod.snd := by
  cases st <;> cases d <;> decide

theorem flushCode_codeword (st : RllState) : flushCode st ∈ [] :: rllTable.map Prod.snd := by
  cases st <;> decide

/-- Settles O19: a stream is codewords one after the other, the last of them from the flush. -/
theorem rllRunLength : Obligations.RllRunLength := by
  intro os n hn
  obtain ⟨hrun, hopen⟩ := gaps_leRun (v := .rll27) (lo := 2) (hi := 7) (bound := fun _ g => g ∈ rllOpen)
    (fun st g d h => codeword_gaps _ (leRll_codeword st.rll d) g h) (st := .start) (g := none) (by decide) (bits os)
  have hflush := (codeword_gaps _ (flushCode_codeword (leRun .rll27 .start (bits os)).1.rll) _ hopen).1
  have hgaps : gapsWithin 2 7 none (bitstream .rll27 os) = true := by
    rw [bitstream, gapsWithin_append, hrun, hflush]; rfl
  exact gap_of_gapsWithin hgaps hn

/-! ### DEM on the stream -/

/-- The state after a running DEM that remembers a level compared it with the first of `ls`, that with the next, and so
on. -/
def State.demodulated (s : State) (ls : List Bit) : State :=
  { s with
    dem := { s.dem with prev := ls.getLastD s.dem.prev, cnt := s.dem.cnt + ls.length }
    ports := { s.ports with demod := s.ports.demod ++ demodulate (s.dem.prev :: ls) } }

theorem demodulated_nil (s : State) : s.demodulated [] = s := by simp [State.demodulated, demodulate]

theorem demodulated_cons (s : State) (l : Bit) (ls : List Bit) :
    s.demodulated (l :: ls) = (s.demodulated [l]).demodulated ls := by
  simp only [State.demodulated, demodulate, List.getLastD_cons, List.getLastD_nil, List.length_cons, List.length_nil,
    List.append_assoc, List.singleton_append, Nat.zero_add, Nat.add_assoc, Nat.add_comm 1]

theorem exec_demLevel_first {s : State} (hrun : s.dem.run = true) (hhave : s.dem.haveSample = false) (l : Bit) :
    exec (.demLevel l) s = .next ({ s with dem := { s.dem with prev := l, haveSample := true } }.answered 0 0) := by
  simp only [exec, execDemLevel, if_pos hrun, demStep_first s l hhave, finish_running]; rfl

theorem exec_demLevel_later {s : State} (hrun : s.dem.run = true) (hhave : s.dem.haveSample = true)
    (hchain : s.cfg.chain.getLsbD 2 = false) (l : Bit) :
    exec (.demLevel l) s = .next ((s.demodulated [l]).answered 0 0) := by
  have hn : ¬chainsScn s.cfg = true := by rw [chainsScn, hchain]; nofun
  simp only [exec, execDemLevel, if_pos hrun, demStep_later s l hhave, if_neg hn, finish_running, State.demodulated,
    State.answered, hhave]; rfl

/-- The later samples of a stream, once DEM has answered `(OK, 0)`. -/
theorem execAll_demLevels (ls : List Bit) {s : State} (hrun : s.dem.run = true) (hhave : s.dem.haveSample = true)
    (hchain : s.cfg.chain.getLsbD 2 = false) (hok : s.response = some ⟨0, 0⟩) :
    execAll (ls.map .demLevel) s = .next (s.demodulated ls) := by
  induction ls generalizing s with
  | nil => rw [demodulated_nil]; rfl
  | cons l ls ih =>
    have hl : exec (.demLevel l) s = .next (s.demodulated [l]) := by
      rw [exec_demLevel_later hrun hhave hchain]; exact congrArg _ (answered_self hok)
    rw [List.map_cons, execAll_cons hl, ih (s := s.demodulated [l]) hrun hhave hchain hok, ← demodulated_cons]

/-- Everything DEM.START, a first sample and later samples do while DEM feeds no scanner. -/
theorem execAll_demStream {s : State} (hchain : s.cfg.chain.getLsbD 2 = false) (l : Bit) (ls : List Bit) :
    execAll (.demStart :: .demLevel l :: ls.map .demLevel) s =
      .next (({ s with dem := ⟨true, true, l, 0⟩ }.answered 0 0).demodulated ls) := by
  have hstart : exec .demStart s = .next ({ s with dem := ⟨true, false, false, 0⟩ }.answered 0 0) := rfl
  rw [execAll_cons hstart, execAll_cons (exec_demLevel_first rfl rfl l)]
  exact execAll_demLevels ls rfl rfl hchain rfl

/-- The modulator's levels at one level per code bit, seen after the level it started from (spec/41_nrzi.md R104). -/
theorem demodulate_modulateFrom (lvl : Bit) (cs : List Bit) : demodulate (lvl :: modulateFrom 1 lvl cs) = cs := by
  induction cs generalizing lvl with
  | nil => rfl
  | cons c cs ih =>
    have htoggle : (lvl ^^ (lvl ^^ c)) = c := by simp
    rw [modulateFrom, List.replicate_one, List.singleton_append, demodulate, ih, htoggle]

/-- Settles O24: the two closed forms, joined by the demodulator inverting the modulator. -/
theorem demRecoversWhatEncSent : Obligations.DemRecoversWhatEncSent := by
  intro s v os hchain
  have hdem := execAll_demStream (s := s.streamed v 1 os) hchain false (modulate (bitstream v os) 1)
  have hdemod := demodulate_modulateFrom false (bitstream v os)
  exact ⟨_, _, _, execAll_encStream s v (by decide) os, streamed_level s v 1 os, hdem, bitstream v os, rfl,
    congrArg (s.ports.demod ++ ·) hdemod⟩

end Sys2Proof.Machine
end

section
/-! PROOFS. The family of spec/41_nrzi.md: the demodulator inverts the modulator, and DEM is the demodulator.

A reference level in front makes the induction over the code bits go through; a stream without one is the tail. -/

namespace Sys2Proof.Machine

/-! ### Demodulating -/

theorem length_demodulate_cons (l : Bit) (ls : List Bit) : (demodulate (l :: ls)).length = ls.length := by
  induction ls generalizing l with
  | nil => rfl
  | cons a ls ih => rw [demodulate, List.length_cons, ih, List.length_cons]

theorem length_demodulate (ls : List Bit) : (demodulate ls).length = ls.length - 1 := by
  cases ls with
  | nil => rfl
  | cons l ls => exact length_demodulate_cons l ls

/-- A reference level in front adds one code bit at the front, and nothing to an empty sequence. -/
theorem tail_demodulate_cons (l : Bit) (ls : List Bit) : (demodulate (l :: ls)).tail = demodulate ls := by
  cases ls with
  | nil => rfl
  | cons _ _ => rfl

/-- A level that stays demodulates to zeros. -/
theorem demodulate_cons_replicate (l : Bit) (n : Nat) (ls : List Bit) :
    demodulate (l :: (List.replicate n l ++ ls)) = List.replicate n false ++ demodulate (l :: ls) := by
  induction n with
  | zero => rfl
  | succ n ih =>
    rw [List.replicate_succ, List.cons_append, demodulate, ih, Bool.xor_self, List.replicate_succ, List.cons_append]

/-- Each code bit comes back where the level may change, and a zero for each repetition of its level. -/
theorem demodulate_modulateFrom_succ (n : Nat) (lvl : Bit) (cs : List Bit) :
    demodulate (lvl :: modulateFrom (n + 1) lvl cs) = cs.flatMap (fun c => c :: List.replicate n false) := by
  induction cs generalizing lvl with
  | nil => rfl
  | cons c cs ih =>
    have htoggle : (lvl ^^ (lvl ^^ c)) = c := by simp
    rw [modulateFrom, List.replicate_succ, List.cons_append, demodulate, demodulate_cons_replicate, ih, htoggle,
      List.flatMap_cons, List.cons_append]

/-- Without the reference level the first code bit is lost, and the zeros after it stay. -/
theorem demodulate_modulate_succ (n : Nat) (c : Bit) (cs : List Bit) :
    demodulate (modulate (c :: cs) (n + 1)) =
      List.replicate n false ++ cs.flatMap (fun x => x :: List.replicate n false) := by
  rw [← tail_demodulate_cons false, modulate, demodulate_modulateFrom_succ, List.flatMap_cons, List.cons_append,
    List.tail_cons]

/-- Settles O21: every clause is the demodulation from the reference level 0, whole or without its first bit. -/
theorem demodulateInvertsModulate : Obligations.DemodulateInvertsModulate := by
  refine ⟨fun c => ?_, demodulate_modulateFrom false, fun c0 c tb htb => ⟨?_, ?_⟩⟩
  · rw [← tail_demodulate_cons false, modulate, demodulate_modulateFrom]
  · obtain ⟨n, rfl⟩ : ∃ n, tb = n + 1 := ⟨tb - 1, by omega⟩
    exact demodulate_modulate_succ n c0 c
  · rw [length_demodulate, modulate, length_modulateFrom]

/-! ### DEM -/

/-- DEM.START replaces DEM whole (spec/41_nrzi.md R108). -/
theorem exec_demStart (s : State) :
    exec .demStart s = .next ({ s with dem := ⟨true, false, false, 0⟩ }.answered 0 0) := rfl

/-- Settles O22: what DEM.START, a first sample and a later sample do. -/
theorem demSamplesCompareNeighbours : Obligations.DemSamplesCompareNeighbours :=
  ⟨exec_demStart, fun _ l hrun hhave => exec_demLevel_first hrun hhave l,
    fun _ l hrun hhave hchain => exec_demLevel_later hrun hhave hchain l⟩

/-- Settles O23: a stream without samples is DEM.START alone, any other has the closed form of its later samples. -/
theorem demStreamDemodulates : Obligations.DemStreamDemodulates := by
  intro s ls hchain
  cases ls with
  | nil =>
    refine ⟨_, execAll_cons (exec_demStart s), ?_, rfl, rfl, rfl, rfl, rfl, rfl, rfl⟩
    rw [demodulate, List.append_nil]; rfl
  | cons l ls => exact ⟨_, execAll_demStream hchain l ls, rfl, Nat.zero_add _, rfl, rfl, rfl, rfl, rfl, rfl⟩

end Sys2Proof.Machine
end

section
/-! PROOFS. The family of spec/42_sync_frame.md: the scanner, the payload decoder, the frames.

While no match has been seen the shift register is the number of the bits seen, modulo `2^L`, so its test is "the marker
is a suffix of what was seen"; `scan` meets the same first match. In the payload each code bit is `State.assembled` or
nothing, then counted, and the assembler, begun empty, delivers `octetsOf` of the data bits. -/

namespace Sys2Proof.Machine

/-! ### Bit strings as numbers (spec/20_memory.md R43, R44) -/

theorem msbNat_concat (a : List Bit) (c : Bit) : msbNat (a ++ [c]) = 2 * msbNat a + c.toNat := by
  rw [msbNat, List.foldl_append]; rfl

theorem msbNat_append (a b : List Bit) : msbNat (a ++ b) = msbNat a * 2 ^ b.length + msbNat b := by
  induction b using List.reverseRecOn with
  | nil => rw [List.append_nil]; exact (Nat.mul_one _).symm
  | append_singleton b c ih =>
    rw [← List.append_assoc, msbNat_concat, ih, msbNat_concat, List.length_append, List.length_singleton]; ring

theorem msbNat_cons (c : Bit) (a : List Bit) : msbNat (c :: a) = c.toNat * 2 ^ a.length + msbNat a :=
  (msbNat_append [c] a).trans (by simp [msbNat])

theorem msbNat_lt (a : List Bit) : msbNat a < 2 ^ a.length := by
  induction a with
  | nil => decide
  | cons c a ih =>
    rw [msbNat_cons, List.length_cons, pow_succ]
    cases c <;> simp <;> omega

/-- Bit strings of one length are told apart by their numbers. -/
theorem msbNat_inj {a b : List Bit} (hlen : a.length = b.length) (h : msbNat a = msbNat b) : a = b := by
  induction a generalizing b with
  | nil => exact (List.length_eq_zero_iff.mp hlen.symm).symm
  | cons x a ih =>
    obtain _ | ⟨y, b⟩ := b
    · cases hlen
    · have hlen' : a.length = b.length := Nat.succ.inj hlen
      have ha := msbNat_lt a
      have hb := msbNat_lt b
      rw [msbNat_cons, msbNat_cons, hlen'] at h
      rw [hlen'] at ha
      have hhead : x = y := by cases x <;> cases y <;> simp at h ⊢ <;> omega
      subst hhead
      rw [ih hlen' (by omega)]

theorem msbNat_msbBits (n v : Nat) : msbNat (msbBits n v) = v % 2 ^ n := by
  induction n with
  | zero => exact (Nat.mod_one v).symm
  | succ n ih =>
    have hbit : (v.testBit n).toNat = v / 2 ^ n % 2 := by
      rw [Nat.testBit_eq_decide_div_mod_eq]
      rcases Nat.mod_two_eq_zero_or_one (v / 2 ^ n) with h | h <;> simp [h]
    rw [msbBits, msbNat_cons, length_msbBits, ih, hbit, Nat.mod_pow_succ]; ring

/-- The last `n` bits of a string are its number modulo `2^n`. -/
theorem msbNat_mod {a : List Bit} {n : Nat} (h : n ≤ a.length) :
    msbNat a % 2 ^ n = msbNat (a.drop (a.length - n)) := by
  have hlen : (a.drop (a.length - n)).length = n := by rw [List.length_drop]; omega
  have hlt := msbNat_lt (a.drop (a.length - n))
  rw [hlen] at hlt
  conv_lhs => rw [← List.take_append_drop (a.length - n) a, msbNat_append, hlen]
  rw [Nat.mul_add_mod_self_right, Nat.mod_eq_of_lt hlt]

/-- The test of the scanner is that the marker stands at the end of what was seen (spec/42_sync_frame.md R117). -/
theorem msbBits_suffix_iff (n v : Nat) (a : List Bit) :
    msbBits n v <:+ a ↔ n ≤ a.length ∧ msbNat a % 2 ^ n = v % 2 ^ n := by
  constructor
  · intro h
    have hle : n ≤ a.length := by simpa [length_msbBits] using h.length_le
    rw [List.suffix_iff_eq_drop, length_msbBits] at h
    rw [msbNat_mod hle, ← h, msbNat_msbBits]
    exact ⟨hle, rfl⟩
  · rintro ⟨hle, h⟩
    rw [msbNat_mod hle, ← msbNat_msbBits] at h
    rw [← msbNat_inj (by rw [List.length_drop, length_msbBits]; omega) h]
    exact List.drop_suffix _ _

/-! ### The first match (spec/42_sync_frame.md R115) -/

theorem scan_of_not_infix {m cs : List Bit} (h : ¬m <:+: cs) : scan m cs = none := by
  induction cs with
  | nil =>
    have hm : m ≠ [] := fun e => h (e ▸ List.nil_infix)
    simp [scan, hm]
  | cons c cs ih =>
    obtain ⟨hhead, htail⟩ := not_or.mp (List.infix_cons_iff.not.mp h)
    rw [scan, if_neg (List.isPrefixOf_iff_prefix.not.mpr hhead), ih htail]; rfl

/-- A match at the end of what was seen, with none before it, is where `scan` stops, whatever follows. -/
theorem scan_of_first_match {m a : List Bit} {c : Bit} (hnot : ¬m <:+: a) (hm : m <:+ a ++ [c]) (p : List Bit) :
    scan m (a ++ c :: p) = some (a.length + 1) := by
  induction a with
  | nil =>
    obtain rfl | h := List.suffix_cons_iff.mp hm
    · exact if_pos (List.isPrefixOf_iff_prefix.mpr ⟨p, rfl⟩)
    · exact absurd h.isInfix hnot
  | cons x a ih =>
    obtain ⟨hhead, htail⟩ := not_or.mp (List.infix_cons_iff.not.mp hnot)
    rw [List.cons_append, scan]
    obtain rfl | h := List.suffix_cons_iff.mp hm
    · rw [if_pos (List.isPrefixOf_iff_prefix.mpr ⟨p, by simp⟩)]; simp
    · have hlen : m.length ≤ (x :: a).length := by simpa using h.length_le
      have hno : ¬m <+: x :: (a ++ c :: p) := fun hp =>
        hhead (List.prefix_of_prefix_length_le hp (List.prefix_append (x :: a) (c :: p)) hlen)
      rw [if_neg (List.isPrefixOf_iff_prefix.not.mpr hno), ih htail h]; rfl

/-- A marker of at least one bit that stands in a stream has a first match there, ended by the bit `c`. -/
theorem exists_first_match {m cs : List Bit} (hm : m ≠ []) (h : m <:+: cs) :
    ∃ a c p, cs = a ++ c :: p ∧ ¬m <:+: a ∧ m <:+ a ++ [c] := by
  induction cs using List.reverseRecOn with
  | nil => exact absurd (List.infix_nil.mp h) hm
  | append_singleton cs c ih =>
    by_cases hcs : m <:+: cs
    · obtain ⟨a, d, p, rfl, hnot, hsuf⟩ := ih hcs
      exact ⟨a, d, p ++ [c], by simp, hnot, hsuf⟩
    · exact ⟨cs, c, [], rfl, hcs, (List.infix_concat_iff.mp h).resolve_right hcs⟩

/-! ### SCN.START and SCN.END -/

/-- SCN.START replaces SCN whole (spec/42_sync_frame.md R116). -/
theorem exec_scnStart (s : State) (v : Scheme) : exec (.scnStart v) s = .next ({ s with
    scn := ⟨.scan, v, s.cfg.marker, s.cfg.markerLen, 0, 0, false, 0, false, 0, 0, 0, 0, 0, 0, 0, 0, 0⟩ }.answered 0 0) :=
  rfl

/-- Settles O25: every register of SCN by name. -/
theorem scnStartBeginsScan : Obligations.ScnStartBeginsScan := exec_scnStart

/-- SCN.END in the payload, with no data bit held by the assembler. -/
theorem exec_scnEnd_whole {s : State} (hp : s.scn.phase = .payload) (h0 : s.scn.cnt = 0) :
    exec .scnEnd s = .next ({ s with
      scn := { s.scn with discard := 0, dangle := dangling s.scn, phase := .done } }.answered 0 0) := by
  simp only [exec, execScnEnd, hp, h0, ↓reduceIte, done_eq]; rfl

/-- SCN.END in the payload, with an incomplete octet in the assembler. -/
theorem exec_scnEnd_truncated {s : State} (hp : s.scn.phase = .payload) (h0 : s.scn.cnt ≠ 0) :
    exec .scnEnd s = .next (raise .truncatedFrame s.scn.cnt.toNat (s.setScn
      { s.scn with discard := s.scn.cnt, dangle := dangling s.scn, phase := .done, evidx := s.scn.idx })) := by
  simp only [exec, execScnEnd, hp, h0, ↓reduceIte, raised_eq]

/-- Settles O32, by the four phases and the count the assembler holds. -/
theorem scnEndOutcomes : Obligations.ScnEndOutcomes := by
  refine ⟨fun s hp => ?_, fun s dangle hp hd => ?_, fun s hp => ?_⟩
  · simp only [exec, execScnEnd, hp]; rfl
  · have hdangle : dangling s.scn = BitVec.ofNat 4 dangle := by
      rw [hd, dangling]
      cases s.scn.dscheme <;> simp
    refine ⟨fun h0 => ?_, fun h0 => ?_⟩
    · rw [exec_scnEnd_whole hp h0, hdangle]
    · rw [exec_scnEnd_truncated hp h0, hdangle, raise_eq, ← valueBits_eq]; rfl
  · obtain hp | hp := hp <;> simp only [exec, execScnEnd, hp] <;> rfl

/-! ### A code bit while scanning -/

theorem exec_scnBit_running {s : State} (hr : scnRunning s.scn = true) (c : Bit) :
    exec (.scnBit c) s = finish none (scnStep c s) := if_pos hr

/-- A code bit while scanning changes SCN as `scanBit` says. -/
theorem exec_scnBit_scan {s : State} (hp : s.scn.phase = .scan) (hh : s.scn.halt = false) (c : Bit) :
    exec (.scnBit c) s = .next ((s.setScn (scanBit c s.scn)).answered 0 0) := by
  have hrun : scnRunning s.scn = true := (scnRunning_iff _).mpr ⟨.inl hp, hh⟩
  rw [exec_scnBit_running hrun, scnStep_scan s c hp]; rfl

/-- The shift register holds a number modulo `2^L` whole. -/
theorem toNat_ofNat_mod {len : Nat} (h : len ≤ 64) (n : Nat) : (BitVec.ofNat 64 (n % 2 ^ len)).toNat = n % 2 ^ len := by
  have hlt : n % 2 ^ len < 2 ^ len := Nat.mod_lt _ (by positivity)
  rw [BitVec.toNat_ofNat, Nat.mod_eq_of_lt (hlt.trans_le (Nat.pow_le_pow_right (by decide) h))]

theorem scanBit_found {u : ScnUnit} {c : Bit} (h : u.l.toNat ≤ u.idx + 1 ∧
    (shiftIn u.sr c u.l.toNat).toNat = u.m.toNat % 2 ^ u.l.toNat) :
    scanBit c u = { u with
      sr := shiftIn u.sr c u.l.toNat, idx := u.idx + 1, found := true, pos := u.idx + 1, phase := .payload } :=
  if_pos h

theorem scanBit_missed {u : ScnUnit} {c : Bit} (h : ¬(u.l.toNat ≤ u.idx + 1 ∧
    (shiftIn u.sr c u.l.toNat).toNat = u.m.toNat % 2 ^ u.l.toNat)) :
    scanBit c u = { u with sr := shiftIn u.sr c u.l.toNat, idx := u.idx + 1 } :=
  if_neg h

/-- Settles O26: the register holds the number of the statement, which is below `2^64` if the marker's length is legal
or the comparison with the 64-bit marker succeeds. -/
theorem scnBitScansForTheMarker : Obligations.ScnBitScansForTheMarker := by
  intro s c hp hh n
  refine ⟨fun ⟨hidx, hn⟩ => ?_, fun hl hno => ?_⟩
  · have hlt : n < 2 ^ 64 := hn ▸ (Nat.mod_le _ _).trans_lt s.scn.m.isLt
    have hsr : (shiftIn s.scn.sr c s.scn.l.toNat).toNat = n := Nat.mod_eq_of_lt hlt
    rw [exec_scnBit_scan hp hh, scanBit_found ⟨hidx, hsr.trans hn⟩]; rfl
  · have hsr : (shiftIn s.scn.sr c s.scn.l.toNat).toNat = n := toNat_ofNat_mod hl _
    rw [exec_scnBit_scan hp hh, scanBit_missed (by rwa [hsr])]; rfl

/-! ### A code bit in the payload -/

/-- A payload bit that violates nothing answers `(OK, 0)` and is counted. -/
theorem exec_scnBit_payload {s t : State} {c : Bit} (hp : s.scn.phase = .payload) (hh : s.scn.halt = false)
    (ht : payStep c s = .running t) : exec (.scnBit c) s = .next ((countCodeBit t).answered 0 0) := by
  have hrun : scnRunning s.scn = true := (scnRunning_iff _).mpr ⟨.inr hp, hh⟩
  rw [exec_scnBit_running hrun, scnStep_payload s c hp, ht]; rfl

/-- A payload bit that violates RLL27 ends the command. -/
theorem exec_scnBit_violation {s t : State} {c : Bit} (hp : s.scn.phase = .payload) (hh : s.scn.halt = false)
    (ht : payStep c s = .ended t) : exec (.scnBit c) s = .next t := by
  have hrun : scnRunning s.scn = true := (scnRunning_iff _).mpr ⟨.inr hp, hh⟩
  rw [exec_scnBit_running hrun, scnStep_payload s c hp, ht]; rfl

/-- The state with `n` more payload code bits counted. -/
def State.counted (s : State) (n : Nat) : State :=
  { s with scn := { s.scn with payIdx := s.scn.payIdx + n, idx := s.scn.idx + n } }

theorem countCodeBit_countPayload (s : State) : countCodeBit (countPayload s) = s.counted 1 := rfl

theorem counted_counted (s : State) (m n : Nat) : (s.counted m).counted n = s.counted (n + m) := by
  simp only [State.counted, Nat.add_assoc, Nat.add_comm n m]

/-- The octet assembler counts no code bit. -/
theorem foldl_assembled_counts (ds : List Bit) (s : State) :
    (ds.foldl State.assembled s).scn.payIdx = s.scn.payIdx ∧ (ds.foldl State.assembled s).scn.idx = s.scn.idx := by
  rw [foldl_assembled_scn]; exact ⟨rfl, rfl⟩

/-- When a payload code bit is a data bit, for the schemes other than RLL27 (spec/42_sync_frame.md R121, R123, R124). -/
def ScnUnit.takesData (u : ScnUnit) : Prop :=
  u.dscheme = .direct ∨ (u.dscheme = .fm ∨ u.dscheme = .mfm) ∧ u.payIdx % 2 = 1

theorem payStep_data {s : State} (h : s.scn.takesData) (c : Bit) :
    payStep c s = .running (countPayload (s.assembled c)) := by
  rw [← dataBit_eq]
  obtain hs | ⟨hs | hs, hodd⟩ := h
  · simp only [payStep, hs]
  all_goals simp only [payStep, hs, hodd, ↓reduceIte]

theorem payStep_clock {s : State} (hs : s.scn.dscheme = .fm ∨ s.scn.dscheme = .mfm) (heven : s.scn.payIdx % 2 = 0)
    (c : Bit) : payStep c s = .running (countPayload s) := by
  obtain hs | hs := hs <;> simp only [payStep, hs, heven, Nat.zero_ne_one, ↓reduceIte]

theorem exec_scnBit_data {s : State} (hp : s.scn.phase = .payload) (hh : s.scn.halt = false) (h : s.scn.takesData)
    (c : Bit) : exec (.scnBit c) s = .next (((s.assembled c).counted 1).answered 0 0) := by
  rw [exec_scnBit_payload hp hh (payStep_data h c), countCodeBit_countPayload]

theorem exec_scnBit_clock {s : State} (hp : s.scn.phase = .payload) (hh : s.scn.halt = false)
    (hs : s.scn.dscheme = .fm ∨ s.scn.dscheme = .mfm) (heven : s.scn.payIdx % 2 = 0) (c : Bit) :
    exec (.scnBit c) s = .next ((s.counted 1).answered 0 0) := by
  rw [exec_scnBit_payload hp hh (payStep_clock hs heven c), countCodeBit_countPayload]

/-- Settles O28: a data bit and a clock bit. -/
theorem payloadBitsReachTheAssembler : Obligations.PayloadBitsReachTheAssembler := by
  refine ⟨fun s c hp hh h => ?_, fun s c hp hh hs heven => exec_scnBit_clock hp hh hs heven c⟩
  obtain ⟨hpay, hidx⟩ := foldl_assembled_counts [c] s
  rw [exec_scnBit_data hp hh h, ← hpay, ← hidx]; rfl

/-! ### An RLL27 payload bit -/

theorem payStep_running {s t : State} {c : Bit} (hs : s.scn.dscheme = .rll27) (ht : rllDecode c s = .running t) :
    payStep c s = .running (countPayload t) := by simp only [payStep, hs, ht]

theorem payStep_ended {s t : State} {c : Bit} (hs : s.scn.dscheme = .rll27) (ht : rllDecode c s = .ended t) :
    payStep c s = .ended t := by simp only [payStep, hs, ht]

theorem rllDecode_codeword {s : State} {c : Bit} {pat : List Bit}
    (h : rllPattern (collectedBits s.scn ++ [c]) = some pat) :
    rllDecode c s = .running ((pat.foldl State.assembled s).setScn
      { (pat.foldl State.assembled s).scn with cbuf := 0, clen := 0 }) := by
  simp only [rllDecode, h, dataBits_eq]

theorem rllDecode_collected {s : State} {c : Bit} (hnot : rllPattern (collectedBits s.scn ++ [c]) = none)
    (h : isRllPrefix (collectedBits s.scn ++ [c]) = true) :
    rllDecode c s = .running (s.setScn { s.scn with
      cbuf := BitVec.ofNat 8 (msbNat (collectedBits s.scn ++ [c])), clen := s.scn.clen + 1 }) := by
  simp only [rllDecode, hnot, h, ↓reduceIte]

theorem rllDecode_violation {s : State} {c : Bit} (hnot : rllPattern (collectedBits s.scn ++ [c]) = none)
    (h : isRllPrefix (collectedBits s.scn ++ [c]) = false) :
    rllDecode c s =
      .ended (raise .codeViolation s.scn.idx (s.setScn { s.scn with halt := true, evidx := s.scn.idx })) := by
  simp only [rllDecode, hnot, h, Bool.false_eq_true, ↓reduceIte]

/-- The bit string with the given numbers, 1 for a set bit. -/
def ofNumbers (w : List Nat) : List Bit := w.map (· == 1)

theorem ofNumbers_map_toNat (a : List Bit) : ofNumbers (a.map Bool.toNat) = a := by
  rw [ofNumbers, List.map_map]
  exact (List.map_congr_left fun b _ => by cases b <;> rfl).trans (List.map_id a)

theorem foldl_map_toNat (a : List Bit) : (a.map Bool.toNat).foldl (fun n b => 2 * n + b) 0 = msbNat a := List.foldl_map

/-- `DEC_CLEN` counts the collected bits. -/
theorem clen_succ (u : ScnUnit) (c : Bit) :
    u.clen + 1 = BitVec.ofNat 4 ((collectedBits u ++ [c]).map Bool.toNat).length := by
  apply BitVec.eq_of_toNat_eq
  simp [collectedBits, length_msbBits, BitVec.toNat_add]

/-- Settles O29: the three lists of R125 are the codewords, their proper prefixes and strings that are neither. -/
theorem rllPayloadBit : Obligations.RllPayloadBit := by
  rintro s c _ hp hh hs rfl
  -- Each `by decide` evaluates the decoder's tables on every string of the statement's list, the `_` in it.
  refine ⟨fun pat hmem => ?_, fun hmem => ?_, fun hmem => ?_⟩
  · have hpat := (by decide : ∀ r : List Nat × List Nat, r ∈ _ →
      rllPattern (ofNumbers r.1) = some (ofNumbers r.2)) _ hmem
    rw [ofNumbers_map_toNat, ofNumbers_map_toNat] at hpat
    obtain ⟨hpay, hidx⟩ := foldl_assembled_counts pat s
    rw [exec_scnBit_payload hp hh (payStep_running hs (rllDecode_codeword hpat)), ← hpay, ← hidx]; rfl
  · obtain ⟨hnot, hcollected⟩ := (by decide : ∀ w : List Nat, w ∈ _ →
      rllPattern (ofNumbers w) = none ∧ isRllPrefix (ofNumbers w) = true) _ hmem
    rw [ofNumbers_map_toNat] at hnot hcollected
    rw [exec_scnBit_payload hp hh (payStep_running hs (rllDecode_collected hnot hcollected)), clen_succ s.scn c,
      ← foldl_map_toNat]; rfl
  · obtain ⟨hnot, hcollected⟩ := (by decide : ∀ w : List Nat, w ∈ _ →
      rllPattern (ofNumbers w) = none ∧ isRllPrefix (ofNumbers w) = false) _ hmem
    rw [ofNumbers_map_toNat] at hnot hcollected
    rw [exec_scnBit_violation hp hh (payStep_ended hs (rllDecode_violation hnot hcollected))]; rfl

/-! ### The octet assembler, begun empty (spec/42_sync_frame.md R122) -/

theorem assembled_emits {s : State} (h : s.scn.cnt.toNat = 7) (d : Bit) :
    s.assembled d = { s with
      scn := { s.scn with nbytes := s.scn.nbytes + 1, shift := 0, cnt := 0 }
      ports := { s.ports with
        byte := s.ports.byte ++ [BitVec.ofNat 8 ((2 * s.scn.shift.toNat + d.toNat) % 256)] } } := if_pos h

theorem assembled_waits {s : State} (h : s.scn.cnt.toNat ≠ 7) (d : Bit) :
    s.assembled d = { s with scn := { s.scn with
      shift := BitVec.ofNat 8 ((2 * s.scn.shift.toNat + d.toNat) % 256)
      cnt := BitVec.ofNat 3 (s.scn.cnt.toNat + 1) } } := if_neg h

/-- The state with the octets `os` more on BYTE, and the data bits `few` of an incomplete one in the assembler. -/
def State.delivered (s : State) (os : List Byte) (few : List Bit) : State :=
  { s with
    scn := { s.scn with
      shift := BitVec.ofNat 8 (msbNat few), cnt := BitVec.ofNat 3 few.length, nbytes := s.scn.nbytes + os.length }
    ports := { s.ports with byte := s.ports.byte ++ os } }

section
variable (s : State) (os : List Byte)

/-- The assembler's number takes in one bit of the next octet. -/
theorem delivered_shift (few : List Bit) (d : Bit) :
    BitVec.ofNat 8 ((2 * (s.delivered os few).scn.shift.toNat + d.toNat) % 256) =
      BitVec.ofNat 8 (msbNat (few ++ [d])) := by
  apply BitVec.eq_of_toNat_eq
  rw [msbNat_concat]
  simp only [State.delivered, BitVec.toNat_ofNat]
  omega

theorem assembled_delivered_few {few : List Bit} (h : few.length < 7) (d : Bit) :
    (s.delivered os few).assembled d = s.delivered os (few ++ [d]) := by
  have hcnt : (s.delivered os few).scn.cnt.toNat = few.length := Nat.mod_eq_of_lt (by omega)
  have hlen : few.length + 1 = (few ++ [d]).length := by rw [List.length_append, List.length_singleton]
  rw [assembled_waits (by omega), delivered_shift, hcnt, hlen]; rfl

theorem assembled_delivered_last {few : List Bit} (h : few.length = 7) (d : Bit) :
    (s.delivered os few).assembled d = s.delivered (os ++ [BitVec.ofNat 8 (msbNat (few ++ [d]))]) [] := by
  have hcnt : (s.delivered os few).scn.cnt.toNat = 7 := by rw [State.delivered, h]; rfl
  rw [assembled_emits hcnt, delivered_shift]
  conv_rhs => rw [State.delivered, ← List.append_assoc, List.length_append, List.length_singleton, ← Nat.add_assoc]
  rfl

/-- Fewer than eight data bits wait in the assembler. -/
theorem foldl_assembled_few (ds : List Bit) {few : List Bit} (h : few.length + ds.length < 8) :
    ds.foldl State.assembled (s.delivered os few) = s.delivered os (few ++ ds) := by
  induction ds generalizing few with
  | nil => rw [List.append_nil]; rfl
  | cons d ds ih =>
    rw [List.length_cons] at h
    have hfew : (few ++ [d]).length + ds.length < 8 := by rw [List.length_append, List.length_singleton]; omega
    rw [List.foldl_cons, assembled_delivered_few s os (by omega), ih hfew, List.append_assoc, List.singleton_append]

/-- The eighth data bit delivers an octet. -/
theorem foldl_assembled_octet {ds : List Bit} (h : ds.length = 8) :
    ds.foldl State.assembled (s.delivered os []) = s.delivered (os ++ [BitVec.ofNat 8 (msbNat ds)]) [] := by
  obtain rfl | ⟨few, d, rfl⟩ := List.eq_nil_or_concat' ds
  · cases h
  · have hfew : few.length = 7 := by simpa using h
    rw [List.foldl_append, foldl_assembled_few s os few (by rw [hfew]; decide), List.nil_append, List.foldl_cons,
      List.foldl_nil, assembled_delivered_last s os hfew]

end

theorem octetsOf_few {ds : List Bit} (h : ds.length < 8) : octetsOf ds = ([], ds) := by
  match ds, h with
  | [], _ | [_], _ | [_, _], _ | [_, _, _], _ | [_, _, _, _], _ | [_, _, _, _, _], _ | [_, _, _, _, _, _], _
  | [_, _, _, _, _, _, _], _ => rfl
  | _ :: _ :: _ :: _ :: _ :: _ :: _ :: _ :: _, h => simp at h; omega

theorem octetsOf_append {w : List Bit} (h : w.length = 8) (rest : List Bit) :
    octetsOf (w ++ rest) = (BitVec.ofNat 8 (msbNat w) :: (octetsOf rest).1, (octetsOf rest).2) := by
  match w, h with
  | [_, _, _, _, _, _, _, _], _ => rfl

/-- The assembler is `octetsOf` bit by bit (spec/42_sync_frame.md R120). -/
theorem foldl_assembled_octets (s : State) (ds : List Bit) (os : List Byte) :
    ds.foldl State.assembled (s.delivered os []) = s.delivered (os ++ (octetsOf ds).1) (octetsOf ds).2 := by
  by_cases h : ds.length < 8
  · rw [octetsOf_few h, List.append_nil, foldl_assembled_few s os ds (by simpa using h), List.nil_append]
  · have hw : (ds.take 8).length = 8 := List.length_take_of_le (by omega)
    have hrest := foldl_assembled_octets s (ds.drop 8) (os ++ [BitVec.ofNat 8 (msbNat (ds.take 8))])
    rw [← List.take_append_drop 8 ds, List.foldl_append, foldl_assembled_octet s os hw, hrest, octetsOf_append hw,
      List.append_assoc, List.singleton_append]
termination_by ds.length
decreasing_by rw [List.length_drop]; omega

/-! ### Several payload bits -/

theorem assembled_counted (s : State) (n : Nat) (d : Bit) : (s.counted n).assembled d = (s.assembled d).counted n := by
  by_cases h : s.scn.cnt.toNat = 7
  · rw [assembled_emits h, assembled_emits (s := s.counted n) h]; rfl
  · rw [assembled_waits h, assembled_waits (s := s.counted n) h]; rfl

theorem foldl_assembled_counted (s : State) (n : Nat) (ds : List Bit) :
    ds.foldl State.assembled (s.counted n) = (ds.foldl State.assembled s).counted n := by
  induction ds generalizing s with
  | nil => rfl
  | cons d ds ih => rw [List.foldl_cons, assembled_counted, ih, List.foldl_cons]

/-- A running unit in the payload of scheme `v`, whose last command answered `(OK, 0)`. -/
structure InPayload (v : Scheme) (s : State) : Prop where
  phase : s.scn.phase = .payload
  halt : s.scn.halt = false
  dscheme : s.scn.dscheme = v
  ok : s.response = some ⟨0, 0⟩

theorem InPayload.counted {v : Scheme} {s : State} (h : InPayload v s) (n : Nat) : InPayload v (s.counted n) :=
  ⟨h.phase, h.halt, h.dscheme, h.ok⟩

theorem InPayload.assembled {v : Scheme} {s : State} (h : InPayload v s) (d : Bit) : InPayload v (s.assembled d) := by
  by_cases h7 : s.scn.cnt.toNat = 7
  · rw [assembled_emits h7]; exact ⟨h.phase, h.halt, h.dscheme, h.ok⟩
  · rw [assembled_waits h7]; exact ⟨h.phase, h.halt, h.dscheme, h.ok⟩

/-- A data bit, once SCN has answered `(OK, 0)`. -/
theorem InPayload.exec_data {v : Scheme} {s : State} (h : InPayload v s) (hd : s.scn.takesData) (c : Bit) :
    exec (.scnBit c) s = .next ((s.assembled c).counted 1) := by
  rw [exec_scnBit_data h.phase h.halt hd]
  exact congrArg _ (answered_self ((h.assembled c).counted 1).ok)

/-- A clock bit, once SCN has answered `(OK, 0)`. -/
theorem InPayload.exec_clock {v : Scheme} {s : State} (h : InPayload v s) (hv : v = .fm ∨ v = .mfm)
    (heven : s.scn.payIdx % 2 = 0) (c : Bit) : exec (.scnBit c) s = .next (s.counted 1) := by
  rw [exec_scnBit_clock h.phase h.halt (by rwa [h.dscheme]) heven]
  exact congrArg _ (answered_self (h.counted 1).ok)

/-- Under Direct every payload bit is a data bit (spec/42_sync_frame.md R124). -/
theorem execAll_direct (cs : List Bit) {s : State} (h : InPayload .direct s) :
    execAll (cs.map .scnBit) s = .next ((cs.foldl State.assembled s).counted cs.length) := by
  induction cs generalizing s with
  | nil => rfl
  | cons c cs ih =>
    rw [List.map_cons, execAll_cons (h.exec_data (.inl h.dscheme) c), ih ((h.assembled c).counted 1),
      foldl_assembled_counted, counted_counted]
    rfl

/-- Under FM and MFM every second payload bit is a data bit, the first of them at index 1 (spec/42_sync_frame.md R120,
R123). -/
theorem execAll_pairs (cs : List Bit) {v : Scheme} (hv : v = .fm ∨ v = .mfm) {s : State} (h : InPayload v s)
    (heven : s.scn.payIdx % 2 = 0) :
    execAll (cs.map .scnBit) s = .next (((oddBits cs).foldl State.assembled s).counted cs.length) := by
  induction cs using oddBits.induct generalizing s with
  | case1 => rfl
  | case2 c => exact execAll_cons (h.exec_clock hv heven c)
  | case3 c d rest ih =>
    have hodd : (s.counted 1).scn.takesData :=
      .inr ⟨by rwa [(h.counted 1).dscheme], by rw [State.counted]; dsimp only; omega⟩
    have hnext : ((s.assembled d).counted 2).scn.payIdx % 2 = 0 := by
      obtain ⟨hpay, -⟩ := foldl_assembled_counts [d] s
      have htwo : ((s.assembled d).counted 2).scn.payIdx = s.scn.payIdx + 2 := congrArg (· + 2) hpay
      omega
    have hdata := (h.counted 1).exec_data hodd d
    rw [assembled_counted, counted_counted] at hdata
    rw [List.map_cons, execAll_cons (h.exec_clock hv heven c), List.map_cons, execAll_cons hdata,
      ih ((h.assembled d).counted 2) hnext, foldl_assembled_counted, counted_counted]
    rfl

/-- A payload of a scheme other than RLL27, from its first bit on. -/
theorem execAll_payload (cs : List Bit) {v : Scheme} (hv : v ≠ .rll27) {s : State} (h : InPayload v s)
    (heven : s.scn.payIdx % 2 = 0) :
    execAll (cs.map .scnBit) s = .next (((payloadData v cs).foldl State.assembled s).counted cs.length) := by
  cases v with
  | direct => exact execAll_direct cs h
  | fm => exact execAll_pairs cs (.inl rfl) h heven
  | mfm => exact execAll_pairs cs (.inr rfl) h heven
  | rll27 => exact absurd rfl hv

/-! ### A whole scan -/

/-- The shift register after the bits `a`. -/
def shiftedIn (len : Nat) (a : List Bit) : BitVec 64 := BitVec.ofNat 64 (msbNat a % 2 ^ len)

theorem shiftedIn_toNat {len : Nat} (h : len ≤ 64) (a : List Bit) : (shiftedIn len a).toNat = msbNat a % 2 ^ len :=
  toNat_ofNat_mod h _

theorem shiftIn_shiftedIn {len : Nat} (h : len ≤ 64) (a : List Bit) (c : Bit) :
    shiftIn (shiftedIn len a) c len = shiftedIn len (a ++ [c]) := by
  rw [shiftIn, shiftedIn_toNat h, shiftedIn, msbNat_concat, Nat.add_mod, Nat.mul_mod, Nat.mod_mod, ← Nat.mul_mod,
    ← Nat.add_mod]

/-- The state after SCN.START and the bits `a` without a match. -/
def State.scanning (s : State) (v : Scheme) (a : List Bit) : State :=
  { s with scn := ⟨.scan, v, s.cfg.marker, s.cfg.markerLen, shiftedIn s.cfg.markerLen.toNat a, a.length, false, 0, false,
    0, 0, 0, 0, 0, 0, 0, 0, 0⟩ }.answered 0 0

/-- The state after SCN.START and the bits `a`, the last of which ends the first match. -/
def State.located (s : State) (v : Scheme) (a : List Bit) : State :=
  { s with scn := ⟨.payload, v, s.cfg.marker, s.cfg.markerLen, shiftedIn s.cfg.markerLen.toNat a, a.length, true,
    a.length, false, 0, 0, 0, 0, 0, 0, 0, 0, 0⟩ }.answered 0 0

theorem located_inPayload (s : State) (v : Scheme) (a : List Bit) : InPayload v (s.located v a) := ⟨rfl, rfl, rfl, rfl⟩

theorem located_delivered_nil (s : State) (v : Scheme) (a : List Bit) :
    (s.located v a).delivered [] [] = s.located v a := by
  rw [State.delivered, List.append_nil]; rfl

/-- The sequence the scanner of `s` looks for. -/
def State.marker (s : State) : List Bit := markerBits s.cfg.marker s.cfg.markerLen.toNat

section
variable {s : State} {v : Scheme} {a : List Bit} {c : Bit}

/-- The scanner's test, after the bits `a` and `c`. -/
theorem scanning_test (hlen : s.cfg.markerLen.toNat ≤ 64) :
    s.marker <:+ a ++ [c] ↔ s.cfg.markerLen.toNat ≤ a.length + 1 ∧
      (shiftIn (shiftedIn s.cfg.markerLen.toNat a) c s.cfg.markerLen.toNat).toNat =
        s.cfg.marker.toNat % 2 ^ s.cfg.markerLen.toNat := by
  rw [State.marker, markerBits, msbBits_suffix_iff, shiftIn_shiftedIn hlen, shiftedIn_toNat hlen, List.length_append,
    List.length_singleton]

theorem exec_scnBit_scanning (hlen : s.cfg.markerLen.toNat ≤ 64) (hm : ¬s.marker <:+ a ++ [c]) :
    exec (.scnBit c) (s.scanning v a) = .next (s.scanning v (a ++ [c])) := by
  rw [exec_scnBit_scan rfl rfl, scanBit_missed ((scanning_test hlen).not.mp hm), State.scanning, State.scanning,
    ← shiftIn_shiftedIn hlen, List.length_append, List.length_singleton]
  rfl

theorem exec_scnBit_locating (hlen : s.cfg.markerLen.toNat ≤ 64) (hm : s.marker <:+ a ++ [c]) :
    exec (.scnBit c) (s.scanning v a) = .next (s.located v (a ++ [c])) := by
  rw [exec_scnBit_scan rfl rfl, scanBit_found ((scanning_test hlen).mp hm), State.scanning, State.located,
    ← shiftIn_shiftedIn hlen, List.length_append, List.length_singleton]
  rfl

/-- A stream without the marker. -/
theorem execAll_scanning (hlen : s.cfg.markerLen.toNat ≤ 64) (hnot : ¬s.marker <:+: a) :
    execAll (.scnStart v :: a.map .scnBit) s = .next (s.scanning v a) := by
  induction a using List.reverseRecOn with
  | nil =>
    rw [List.map_nil, execAll_cons (exec_scnStart s v), State.scanning, shiftedIn, msbNat, List.foldl_nil, Nat.zero_mod]
    rfl
  | append_singleton a c ih =>
    obtain ⟨hsuf, hinfix⟩ := not_or.mp (List.infix_concat_iff.not.mp hnot)
    rw [List.map_append, ← List.cons_append, execAll_append _ _ _ _ (ih hinfix)]
    exact execAll_cons (exec_scnBit_scanning hlen hsuf)

/-- A stream up to the end of its first match, under every scheme. -/
theorem execAll_located (hlen : s.cfg.markerLen.toNat ≤ 64) (hnot : ¬s.marker <:+: a) (hm : s.marker <:+ a ++ [c]) :
    execAll (.scnStart v :: (a ++ [c]).map .scnBit) s = .next (s.located v (a ++ [c])) := by
  rw [List.map_append, ← List.cons_append, execAll_append _ _ _ _ (execAll_scanning hlen hnot)]
  exact execAll_cons (exec_scnBit_locating hlen hm)

/-- A stream with the marker and a payload `p` of a scheme other than RLL27. -/
theorem execAll_frame (hv : v ≠ .rll27) (hlen : s.cfg.markerLen.toNat ≤ 64) (hnot : ¬s.marker <:+: a)
    (hm : s.marker <:+ a ++ [c]) (p : List Bit) :
    execAll (.scnStart v :: (a ++ c :: p).map .scnBit) s =
      .next (((s.located v (a ++ [c])).delivered (octetsOf (payloadData v p)).1 (octetsOf (payloadData v p)).2).counted
        p.length) := by
  have hoctets := foldl_assembled_octets (s.located v (a ++ [c])) (payloadData v p) []
  rw [located_delivered_nil, List.nil_append] at hoctets
  rw [List.append_cons, List.map_append, ← List.cons_append, execAll_append _ _ _ _ (execAll_located hlen hnot hm),
    execAll_payload p hv (located_inPayload s v _) rfl, hoctets]

end

/-- Settles O27: the marker does not stand in the stream, or the stream is cut at the end of its first match. -/
theorem scannerComputesScan : Obligations.ScannerComputesScan := by
  intro s v cs hv hpos hlen
  by_cases h : s.marker <:+: cs
  · have hm : s.marker ≠ [] := by
      rw [State.marker, markerBits, ← List.length_pos_iff, length_msbBits]; exact hpos
    obtain ⟨a, c, p, rfl, hnot, hsuf⟩ := exists_first_match hm h
    have hscan : scan (markerBits s.cfg.marker s.cfg.markerLen.toNat) (a ++ c :: p) = some (a.length + 1) :=
      scan_of_first_match hnot hsuf p
    rw [hscan]
    have hseen : (a ++ [c]).length = a.length + 1 := by rw [List.length_append, List.length_singleton]
    have hrest : (a ++ c :: p).drop (a ++ [c]).length = p := by rw [List.append_cons a c p, List.drop_left]
    refine ⟨_, execAll_frame hv hlen hnot hsuf p, ?_, fun q => ?_, ⟨nofun, nofun⟩, nofun, fun _ => ?_⟩
    · rw [List.append_cons a c p, List.length_append]; rfl
    · rw [← hseen]
      exact ⟨fun h => ⟨rfl, Option.some.inj h⟩, fun ⟨_, h⟩ => congrArg some h⟩
    · exact congrArg (fun x => { s.ports with byte := s.ports.byte ++ (octetsOf (payloadData v x)).1 }) hrest.symm
  · have hscan : scan (markerBits s.cfg.marker s.cfg.markerLen.toNat) cs = none := scan_of_not_infix h
    rw [hscan]
    exact ⟨_, execAll_scanning hlen h, rfl, fun q => ⟨nofun, nofun⟩, ⟨fun _ => rfl, fun _ => rfl⟩,
      fun _ => ⟨rfl, rfl⟩, nofun⟩

/-! ### MFM frames (spec/42_sync_frame.md R126) -/

/-- The data bit of pair `k` sits at odd index `2k+1` (spec/40_line_encoders.md R75). -/
theorem oddBits_leRun_mfm (st : LineState) (ds : List Bit) : oddBits (leRun .mfm st ds).2 = ds := by
  induction ds generalizing st with
  | nil => rfl
  | cons d ds ih => exact congrArg (d :: ·) (ih _)

theorem oddBits_bitstream_mfm (os : List Byte) : oddBits (bitstream .mfm os) = bits os := by
  have hidle : (leRun .mfm .start (bits os)).1.rll = .idle := (leRun_unused .mfm .start (bits os)).2 (by decide)
  rw [bitstream, hidle, flushCode, List.append_nil, oddBits_leRun_mfm]

theorem ofNat_msbNat_octetBits (b : Byte) : BitVec.ofNat 8 (msbNat (octetBits b)) = b := by
  have h : msbNat (octetBits b) = b.toNat % 2 ^ 8 := msbNat_msbBits 8 b.toNat
  rw [h, Nat.mod_eq_of_lt b.isLt, BitVec.ofNat_toNat, BitVec.setWidth_eq]

theorem octetsOf_bits (os : List Byte) : octetsOf (bits os) = (os, []) := by
  induction os with
  | nil => rfl
  | cons b os ih => rw [bits_cons, bits_singleton, octetsOf_append rfl, ih, ofNat_msbNat_octetBits]

/-- Settles O31: the lead and the marker end the first match, and the payload's odd bits are the octets' own. -/
theorem mfmFrameRoundTrip : Obligations.MfmFrameRoundTrip := by
  intro s x os hmarker hlen hscan
  have hsync : s.marker = Config.syncMarker := by rw [State.marker, hmarker, hlen]; decide
  have hinfix : s.marker <:+: x ++ Config.syncMarker ++ bitstream .mfm os := hsync ▸ ⟨x, _, rfl⟩
  obtain ⟨a, c, p, hcut, hnot, hsuf⟩ := exists_first_match (by rw [hsync]; decide) hinfix
  have hpos : a.length + 1 = x.length + 15 := by
    have hfirst := scan_of_first_match hnot hsuf p
    rw [← hcut, hsync, hscan] at hfirst
    exact (Option.some.inj hfirst).symm
  have hseen : (a ++ [c]).length = x.length + 15 := by rw [List.length_append, List.length_singleton, hpos]
  rw [List.append_cons] at hcut
  obtain ⟨hlead, rfl⟩ := List.append_inj hcut (by rw [List.length_append, hseen]; rfl)
  have hoctets : octetsOf (payloadData .mfm (bitstream .mfm os)) = (os, []) :=
    (congrArg octetsOf (oddBits_bitstream_mfm os)).trans (octetsOf_bits os)
  have hframe := execAll_frame (s := s) (v := .mfm) (by decide) (by rw [hlen]; decide) hnot hsuf (bitstream .mfm os)
  rw [hoctets, List.append_cons, ← hcut] at hframe
  refine ⟨_, (execAll_append _ _ _ _ hframe).trans (execAll_cons (exec_scnEnd_whole rfl rfl)), rfl, rfl, rfl, ?_, hseen⟩
  have heven : (0 + (bitstream .mfm os).length) % 2 = 0 := by
    rw [length_bitstream (n := 2) (by decide) fun _ _ => rfl]; omega
  exact congrArg (BitVec.ofNat 4) heven

end Sys2Proof.Machine
end

section
/-! PROOFS. The family of spec/43_cdr_float.md: CDRF.START, one sample of the loop, the bounds of the path, zero phase
error.

Without a phase error the loop is a clock: after `n` samples the accumulator holds `n mod 2h` tuning words, so it wraps
where `2h` divides `n` and a transition falls on its half-cycle mark where `n` is `h` more than that. A stretch of `h`
samples of one level begins at one or the other of these two places, and is what the induction over the symbols is
made of. -/

namespace Sys2Proof.Machine

/-! ### CDRF.START (spec/43_cdr_float.md R143) -/

theorem loopConfig_complete {c : CfgRegs} {im : RatReg} {az tb : BitVec 32} (him : c.integMax = some im)
    (haz : c.accSize = some az) (htb : c.tbC = some tb) : loopConfig c = .ok (im, az, tb) := by
  simp only [loopConfig, him, haz, htb]

/-- An incomplete configuration is refused with the index of its lowest-numbered unwritten register. -/
theorem loopConfig_incomplete {c : CfgRegs} {i : BitVec 64} (h : (c.integMax = none ∧ i = 3) ∨
    (c.integMax ≠ none ∧ c.accSize = none ∧ i = 4) ∨
    (c.integMax ≠ none ∧ c.accSize ≠ none ∧ c.tbC = none ∧ i = 5)) : loopConfig c = .error i.toNat := by
  obtain ⟨im, az, tb, him, haz, htb, -⟩ | ⟨him, he⟩ | ⟨him, haz, he⟩ | ⟨him, haz, htb, he⟩ :=
    loopConfig_cases c
  · simp [him, haz, htb] at h
  all_goals simp_all

/-- CDRF.START with a complete configuration replaces CDRF whole. -/
theorem exec_cdrfStart_complete {s : State} {im : RatReg} {az tb : BitVec 32} (him : s.cfg.integMax = some im)
    (haz : s.cfg.accSize = some az) (htb : s.cfg.tbC = some tb) :
    exec .cdrfStart s = .next ({ s with cdrf :=
      { run := true, latch := some (realLatch s.cfg im az tb), acc := 0, last := 0, pd := 0, pdf := 0, integ := 0
        ftw := (realLatch s.cfg im az tb).ftw0, prev := false, idx := 0, nrec := 0, sat := 0, satFirst := 0 } }.answered
      0 0) := by
  rw [exec, execCdrfStart, loopConfig_complete him haz htb]; rfl

theorem exec_cdrfStart_incomplete {s : State} {i : Nat} (h : loopConfig s.cfg = .error i) :
    exec .cdrfStart s = .next (raise .badConfig i s) := by
  rw [exec, execCdrfStart, h]; rfl

/-- Settles O33: the configuration is complete or has a lowest-numbered gap. -/
theorem cdrfStartLatchesConstants : Obligations.CdrfStartLatchesConstants := by
  refine ⟨fun s im az tb him haz htb => exec_cdrfStart_complete him haz htb, fun s i h => ?_⟩
  rw [exec_cdrfStart_incomplete (loopConfig_incomplete h), raise_eq, BitVec.ofNat_toNat, BitVec.setWidth_eq]; rfl

/-! ### The numbers of one sample (spec/43_cdr_float.md R144) -/

theorem realPd_eq (k : CdrfLatch) (b : Bit) (u : CdrfUnit) :
    realPd k b u = if b = u.prev then u.pd else (k.accsz : Rat) / 2 - u.acc := by
  by_cases h : b = u.prev <;> simp [realPd, h]

theorem realWraps_iff (u : CdrfUnit) : realWraps u = true ↔ u.acc < u.last := decide_eq_true_iff

/-- A sample hits the clamp when its sum is at or beyond a bound (spec/43_cdr_float.md R146). -/
theorem realHits_iff (k : CdrfLatch) (b : Bit) (u : CdrfUnit) :
    realHits k b u = true ↔ k.imax ≤ realSum k b u ∨ realSum k b u ≤ -k.imax := by
  simp [realHits, hitsClampRat]

/-! ### A sample of a running unit -/

/-- What a sample leaves whose bit is not forwarded: the loop's own step, and its response. -/
def State.sampled (s : State) (k : CdrfLatch) (b : Bit) : State :=
  (realAdvance k b s).1.setResponse (some ((realAdvance k b s).2.getD okResponse))

@[simp] theorem sampled_cdrf (s : State) (k : CdrfLatch) (b : Bit) :
    (s.sampled k b).cdrf = realSample k b s.cdrf := by
  rw [State.sampled, State.setResponse_cdrf, realAdvance_state]

@[simp] theorem sampled_cfg (s : State) (k : CdrfLatch) (b : Bit) : (s.sampled k b).cfg = s.cfg := by
  rw [State.sampled, State.setResponse_cfg, realAdvance_state]

@[simp] theorem sampled_ports (s : State) (k : CdrfLatch) (b : Bit) : (s.sampled k b).ports =
    if realWraps s.cdrf then { s.ports with recF := s.ports.recF ++ [b] } else s.ports := by
  rw [State.sampled, State.setResponse_ports, realAdvance_state]

theorem realCommand_latched {s : State} {k : CdrfLatch} (hrun : s.cdrf.run = true) (hk : s.cdrf.latch = some k)
    (b : Bit) : realCommand b s = realStep k b s := by
  simp only [realCommand, hrun, hk, ↓reduceIte]

theorem chainSource_ne_real {c : CfgRegs} (h : c.chain.extractLsb' 0 2 ≠ 1) : chainSource c ≠ some .real := by
  rw [chainSource, if_neg h]
  split <;> nofun

/-- A sample of a running unit, with another source chained or no bit recovered. -/
theorem realCommand_unforwarded {s : State} {k : CdrfLatch} (hrun : s.cdrf.run = true) (hk : s.cdrf.latch = some k)
    (h : s.cfg.chain.extractLsb' 0 2 ≠ 1 ∨ ¬s.cdrf.acc < s.cdrf.last) (b : Bit) :
    realCommand b s = .next (s.sampled k b) := by
  have hforward : ¬(realWraps s.cdrf && chainSource s.cfg == some .real) = true := by
    rw [Bool.and_eq_true, realWraps_iff, beq_iff_eq]
    rintro ⟨hwraps, hreal⟩
    exact h.elim (fun hc => chainSource_ne_real hc hreal) fun hw => hw hwraps
  rw [realCommand_latched hrun hk, realStep]
  exact congrArg (finish _) (if_neg hforward)

/-- Everything such a sample leaves, written out. -/
theorem sampled_eq (s : State) (k : CdrfLatch) (b : Bit) :
    let t : State := { s with
      ports := { s.ports with recF := s.ports.recF ++ (if s.cdrf.acc < s.cdrf.last then [b] else []) }
      status := if realHits k b s.cdrf then s.status ||| 0x08 else s.status
      cdrf := realSample k b s.cdrf }
    s.sampled k b =
      if realHits k b s.cdrf then t.answered 0x04 (BitVec.ofNat 64 s.cdrf.idx) else t.answered 0 0 := by
  rw [State.sampled, realAdvance_state, realAdvance_pending]
  simp only [realWraps_iff]
  split <;> split <;> simp <;> rfl

theorem slice_eq {a : Byte} {b : Bit} (h : b = true ↔ 128 < a.toNat) : slice a = b :=
  Bool.eq_iff_iff.mpr (decide_eq_true_iff.trans h.symm)

/-- Settles O34: the numbers of the sample are those of the statement, and both commands are the one sample. -/
theorem cdrfSampleRunsTheSevenSteps : Obligations.CdrfSampleRunsTheSevenSteps := by
  intro s b k hrun hk hforward
  have sample := realCommand_unforwarded hrun hk hforward b
  rw [sampled_eq] at sample
  simp only [realSample, realWraps_iff, realHits_iff, realSum, realInteg, realFtw, realPdf, realPd_eq,
    Bool.and_eq_true, beq_iff_eq] at sample
  exact ⟨sample, fun a ha => (congrArg (realCommand · s) (slice_eq ha)).trans sample⟩

/-! ### The bounds of the path (spec/43_cdr_float.md R148) -/

/-- The chain leaves CDRF as it is. -/
theorem forwardDem_state_cdrf (b : Bit) (s : State) : (forwardDem b s).state.cdrf = s.cdrf := by
  cases h : forwardDem b s with
  | running t => obtain ⟨-, -, hcdrf, -⟩ := forwardDem_frame s b t (.inl h); exact hcdrf
  | ended t => obtain ⟨-, -, hcdrf, -⟩ := forwardDem_frame s b t (.inr h); exact hcdrf

/-- A sample of a running unit completes and advances CDRF, whatever the chain does with the bit. -/
theorem realCommand_cdrf {s : State} {k : CdrfLatch} (hrun : s.cdrf.run = true) (hk : s.cdrf.latch = some k)
    (b : Bit) : ∃ t, realCommand b s = .next t ∧ t.cdrf = realSample k b s.cdrf := by
  obtain ⟨r, hr⟩ := finish_state (realAdvance k b s).2 (if realWraps s.cdrf && chainSource s.cfg == some .real
    then forwardDem b (realAdvance k b s).1 else .running (realAdvance k b s).1)
  refine ⟨_, (realCommand_latched hrun hk b).trans hr, ?_⟩
  have own : (realAdvance k b s).1.cdrf = realSample k b s.cdrf := by rw [realAdvance_state]
  rw [State.setResponse_cdrf]
  split
  · rw [forwardDem_state_cdrf, own]
  · exact own

/-- Settles O35: a sample keeps the unit good, and a good unit is within the bounds. -/
theorem cdrfSampleKeepsBounds : Obligations.CdrfSampleKeepsBounds := by
  intro s b k good hk
  have hrun : s.cdrf.run = true := by rw [← good.latched, hk]; rfl
  obtain ⟨t, ht, hcdrf⟩ := realCommand_cdrf hrun hk b
  have next : CdrfGood t.cdrf := hcdrf ▸ realSample_good good hk b
  have latch : t.cdrf.latch = some k := by rw [hcdrf]; exact hk
  obtain ⟨acc_nonneg, acc_lt⟩ := next.acc k latch
  obtain ⟨le_integ, integ_le⟩ := next.integ k latch
  exact ⟨t, ht, latch, acc_nonneg, acc_lt, le_integ, integ_le, next.nrec, next.sat, next⟩

/-! ### Zero phase error (spec/43_cdr_float.md R147) -/

/-- A whole number of tuning words, modulo a whole number of them. -/
theorem ratMod_natCast_mul (n p : Nat) {f : Rat} (hf : f ≠ 0) :
    ratMod ((n : Rat) * f) ((p : Rat) * f) = ((n % p : Nat) : Rat) * f := by
  have hfloor : ⌊(n : Rat) * f / ((p : Rat) * f)⌋ = ((n / p : Nat) : Int) := by
    rw [mul_div_mul_right _ _ hf, Rat.floor_natCast_div_natCast]; rfl
  have hdiv : (n : Rat) = (p : Rat) * ((n / p : Nat) : Rat) + ((n % p : Nat) : Rat) := by
    exact_mod_cast (Nat.div_add_mod n p).symm
  rw [ratMod, hfloor, Int.cast_natCast]
  linear_combination f * hdiv

/-- The remainder falls back exactly where a full period ends. -/
theorem mod_lt_pred_mod_iff {p : Nat} (hp : 1 < p) (n : Nat) : n % p < (n - 1) % p ↔ p ∣ n ∧ 0 < n := by
  cases n with
  | zero => simp
  | succ n =>
    have hlt : n % p < p := Nat.mod_lt _ (by omega)
    rw [Nat.add_sub_cancel, Nat.dvd_iff_mod_eq_zero, ← Nat.mod_add_mod]
    by_cases h : n % p + 1 = p
    · rw [h, Nat.mod_self]; omega
    · rw [Nat.mod_eq_of_lt (by omega)]; omega

/-- Constants whose accumulator takes `2h` nominal tuning words to wrap. -/
structure Tuned (k : CdrfLatch) (h : Nat) : Prop where
  half : 0 < h
  ftw0 : 0 < k.ftw0
  accsz : (k.accsz : Rat) = ((2 * h : Nat) : Rat) * k.ftw0
  imax : 0 ≤ k.imax

/-- CDRF after `n` samples none of which had a phase error. -/
structure ZeroError (k : CdrfLatch) (h n : Nat) (u : CdrfUnit) : Prop where
  run : u.run = true
  latch : u.latch = some k
  pd : u.pd = 0
  pdf : u.pdf = 0
  integ : u.integ = 0
  ftw : u.ftw = k.ftw0
  acc : u.acc = ((n % (2 * h) : Nat) : Rat) * k.ftw0
  last : u.last = (((n - 1) % (2 * h) : Nat) : Rat) * k.ftw0
  idx : u.idx = n

section
variable {k : CdrfLatch} {h n : Nat} {u : CdrfUnit} {b : Bit}

/-- On the half-cycle mark, or between transitions, the phase error is 0. -/
theorem ZeroError.realPd_eq_zero (hu : ZeroError k h n u) (hk : Tuned k h) (hb : b = u.prev ∨ n % (2 * h) = h) :
    realPd k b u = 0 := by
  rw [realPd_eq]
  split
  next => exact hu.pd
  next hne =>
    rw [hu.acc, hb.resolve_left hne, hk.accsz]
    push_cast
    ring

/-- A sample without a phase error advances the accumulator by the nominal tuning word. -/
theorem ZeroError.next (hu : ZeroError k h n u) (hk : Tuned k h) (hb : b = u.prev ∨ n % (2 * h) = h) :
    ZeroError k h (n + 1) (realSample k b u) := by
  have hpdf : realPdf k b u = 0 := by rw [realPdf, hu.realPd_eq_zero hk hb, hu.pdf]; ring
  have hsum : realSum k b u = 0 := by rw [realSum, hpdf, hu.integ]; ring
  have hinteg : realInteg k b u = 0 := by
    have := hk.imax
    rw [realInteg, hsum, clampRat, if_neg (by linarith), if_neg (by linarith)]
  have hftw : realFtw k b u = k.ftw0 := by rw [realFtw, hpdf, hinteg]; ring
  refine ⟨hu.run, hu.latch, hu.realPd_eq_zero hk hb, hpdf, hinteg, hftw, ?_, hu.acc, congrArg (· + 1) hu.idx⟩
  have hnext : u.acc + realFtw k b u = ((n % (2 * h) + 1 : Nat) : Rat) * k.ftw0 := by
    rw [hu.acc, hftw]; push_cast; ring
  calc ratMod (u.acc + realFtw k b u) k.accsz
      = (((n % (2 * h) + 1) % (2 * h) : Nat) : Rat) * k.ftw0 := by
        rw [hnext, hk.accsz, ratMod_natCast_mul _ _ hk.ftw0.ne']
    _ = (((n + 1) % (2 * h) : Nat) : Rat) * k.ftw0 := by rw [Nat.mod_add_mod]

/-- A bit is recovered at the samples `2h`, `4h`, `6h`, and so on. -/
theorem ZeroError.wraps_iff (hu : ZeroError k h n u) (hk : Tuned k h) :
    realWraps u = true ↔ 2 * h ∣ n ∧ 0 < n := by
  have := hk.half
  rw [realWraps_iff, hu.acc, hu.last, mul_lt_mul_iff_left₀ hk.ftw0, Nat.cast_lt,
    mod_lt_pred_mod_iff (by omega)]

end

/-- The block `n` samples after `s`, none of which had a phase error: the last level was `b`, and the bits `ys` have
been recovered. -/
structure Recovering (s : State) (k : CdrfLatch) (h n : Nat) (b : Bit) (ys : List Bit) (t : State) : Prop where
  unit : ZeroError k h n t.cdrf
  prev : t.cdrf.prev = b
  nrec : t.cdrf.nrec = ys.length
  cfg : t.cfg = s.cfg
  ports : t.ports = { s.ports with recF := s.ports.recF ++ ys }

section
variable {s t : State} {k : CdrfLatch} {h n : Nat} {b : Bit} {ys : List Bit}

/-- One sample. -/
theorem Recovering.exec_sample (ht : Recovering s k h n b ys t) (hk : Tuned k h)
    (hc : s.cfg.chain.extractLsb' 0 2 ≠ 1) {x : Bit} (hx : x = b ∨ n % (2 * h) = h) :
    ∃ t', exec (.cdrfSample x) t = .next t' ∧
      Recovering s k h (n + 1) x (ys ++ if 2 * h ∣ n ∧ 0 < n then [x] else []) t' := by
  refine ⟨_, realCommand_unforwarded ht.unit.run ht.unit.latch (.inl (ht.cfg ▸ hc)) x, ?_, ?_, ?_, ?_, ?_⟩
  · rw [sampled_cdrf]
    exact ht.unit.next hk (by rwa [ht.prev])
  · rw [sampled_cdrf]; rfl
  · rw [sampled_cdrf, realSample]
    simp only [ht.unit.wraps_iff hk, ht.nrec]
    split <;> simp
  · rw [sampled_cfg, ht.cfg]
  · rw [sampled_ports, ht.ports]
    simp only [ht.unit.wraps_iff hk]
    split <;> simp

/-- Samples that hold the level, none of them where the accumulator wraps. -/
theorem Recovering.execAll_held (ht : Recovering s k h n b ys t) (hk : Tuned k h)
    (hc : s.cfg.chain.extractLsb' 0 2 ≠ 1) (m : Nat) (hm : ∀ i < m, ¬2 * h ∣ n + i) :
    ∃ t', execAll ((List.replicate m b).map .cdrfSample) t = .next t' ∧ Recovering s k h (n + m) b ys t' := by
  induction m generalizing n t with
  | zero => exact ⟨t, rfl, ht⟩
  | succ m ih =>
    obtain ⟨u, hu, next⟩ := ht.exec_sample hk hc (.inl rfl)
    rw [if_neg fun hd => hm 0 m.succ_pos hd.1, List.append_nil] at next
    obtain ⟨t', ht', last⟩ := ih next fun i hi => Nat.add_right_comm n 1 i ▸ hm (i + 1) (Nat.succ_lt_succ hi)
    exact ⟨t', (execAll_cons hu).trans ht', Nat.add_right_comm n 1 m ▸ last⟩

/-- Half a symbol of the level `x`: the level may change only on a half-cycle mark, and a bit is recovered only at its
first sample. -/
theorem Recovering.execAll_half {q : Nat} (ht : Recovering s k h (h * q) b ys t) (hk : Tuned k h)
    (hc : s.cfg.chain.extractLsb' 0 2 ≠ 1) {x : Bit} (hx : x = b ∨ q % 2 = 1) :
    ∃ t', execAll ((List.replicate h x).map .cdrfSample) t = .next t' ∧
      Recovering s k h (h * (q + 1)) x (ys ++ if 2 ∣ q ∧ 0 < q then [x] else []) t' := by
  have hpos := hk.half
  have hmark : x = b ∨ h * q % (2 * h) = h := hx.imp_right fun hq => by
    rw [Nat.mul_comm 2, Nat.mul_mod_mul_left, hq, Nat.mul_one]
  have hwrap : (2 * h ∣ h * q ∧ 0 < h * q) ↔ 2 ∣ q ∧ 0 < q := by
    rw [Nat.mul_comm 2, Nat.mul_dvd_mul_iff_left hpos, Nat.mul_pos_iff_of_pos_left hpos]
  obtain ⟨u, hu, next⟩ := ht.exec_sample hk hc hmark
  simp only [hwrap] at next
  have hheld : ∀ i < h - 1, ¬2 * h ∣ h * q + 1 + i := fun i hi hd => by
    have hd' : h ∣ h * q + (1 + i) := Nat.add_assoc _ _ _ ▸ (Nat.dvd_mul_left h 2).trans hd
    have hle := Nat.le_of_dvd (by omega) ((Nat.dvd_add_right (Nat.dvd_mul_right h q)).mp hd')
    omega
  obtain ⟨t', ht', last⟩ := next.execAll_held hk hc (h - 1) hheld
  have hrep : List.replicate h x = x :: List.replicate (h - 1) x := by
    rw [← List.replicate_succ, Nat.sub_add_cancel hpos]
  have hend : h * q + 1 + (h - 1) = h * (q + 1) := by rw [Nat.mul_add_one]; omega
  rw [hrep]
  exact ⟨t', (execAll_cons hu).trans ht', hend ▸ last⟩

/-- A whole symbol: it begins on a half-cycle mark, and the wrap in its middle recovers it. -/
theorem Recovering.execAll_symbol {j : Nat} (ht : Recovering s k h (h * (2 * j + 1)) b ys t) (hk : Tuned k h)
    (hc : s.cfg.chain.extractLsb' 0 2 ≠ 1) (x : Bit) :
    ∃ t', execAll ((List.replicate (2 * h) x).map .cdrfSample) t = .next t' ∧
      Recovering s k h (h * (2 * (j + 1) + 1)) x (ys ++ [x]) t' := by
  obtain ⟨u, hu, middle⟩ := ht.execAll_half hk hc (x := x) (.inr (by omega))
  rw [if_neg (by omega), List.append_nil] at middle
  obtain ⟨t', ht', last⟩ := middle.execAll_half hk hc (.inl rfl)
  rw [if_pos (by omega)] at last
  rw [Nat.two_mul, List.replicate_add, List.map_append, execAll_append _ _ _ _ hu]
  exact ⟨t', ht', last⟩

/-- Symbols one after the other. -/
theorem Recovering.execAll_symbols {j : Nat} (ht : Recovering s k h (h * (2 * j + 1)) b ys t) (hk : Tuned k h)
    (hc : s.cfg.chain.extractLsb' 0 2 ≠ 1) (xs : List Bit) :
    ∃ c t', execAll ((xs.flatMap fun x => List.replicate (2 * h) x).map .cdrfSample) t = .next t' ∧
      Recovering s k h (h * (2 * (j + xs.length) + 1)) c (ys ++ xs) t' := by
  induction xs generalizing j b ys t with
  | nil => exact ⟨b, t, rfl, by simpa using ht⟩
  | cons x xs ih =>
    obtain ⟨u, hu, next⟩ := ht.execAll_symbol hk hc x
    obtain ⟨c, t', ht', last⟩ := ih next
    rw [List.flatMap_cons, List.map_append, execAll_append _ _ _ _ hu]
    rw [List.append_assoc, List.singleton_append, Nat.add_right_comm j 1] at last
    exact ⟨c, t', ht', last⟩

end

/-- With `TB_C = 4h` the nominal tuning word is the accumulator's size over `2h` (spec/43_cdr_float.md R142). -/
theorem realLatch_tuned (c : CfgRegs) {im : RatReg} {az tb : BitVec 32} {h : Nat} (haz : az ≠ 0)
    (htb : tb.toNat = 4 * h) (hpos : 0 < h) (him : 0 ≤ im.num.toInt) : Tuned (realLatch c im az tb) h := by
  have hsize : (0 : Rat) < az.toNat := by exact_mod_cast toNat_pos haz
  have hhalf : (0 : Rat) < h := by exact_mod_cast hpos
  have hword : (realLatch c im az tb).ftw0 = az.toNat / (2 * h) := by
    simp only [realLatch, htb]
    push_cast
    field_simp
    ring
  refine ⟨hpos, by rw [hword]; positivity, ?_, value_nonneg him⟩
  rw [hword]
  push_cast
  exact (mul_div_cancel₀ _ (by positivity)).symm

/-- CDRF.START begins without a phase error. -/
theorem exec_cdrfStart_recovering {s : State} {im : RatReg} {az tb : BitVec 32} (him : s.cfg.integMax = some im)
    (haz : s.cfg.accSize = some az) (htb : s.cfg.tbC = some tb) (h : Nat) :
    ∃ t, exec .cdrfStart s = .next t ∧ Recovering s (realLatch s.cfg im az tb) h 0 false [] t := by
  refine ⟨_, exec_cdrfStart_complete him haz htb, ⟨rfl, rfl, rfl, rfl, rfl, rfl, ?_, ?_, rfl⟩, rfl, rfl, rfl, ?_⟩
  · rw [Nat.zero_mod, Nat.cast_zero, zero_mul]; rfl
  · rw [Nat.zero_sub, Nat.zero_mod, Nat.cast_zero, zero_mul]; rfl
  · rw [List.append_nil]; rfl

/-- Settles O36: START and the leading half period reach the first half-cycle mark, and every symbol begins on one. -/
theorem zeroPhaseErrorReal : Obligations.ZeroPhaseErrorReal := by
  intro s im az tb h xs him haz htb hne hperiod hpos hnum hc
  have tuned := realLatch_tuned s.cfg hne hperiod hpos hnum
  obtain ⟨s0, hstart, started⟩ := exec_cdrfStart_recovering him haz htb h
  obtain ⟨s1, hlead, locked⟩ := Recovering.execAll_half (q := 0) started tuned hc (.inl rfl)
  obtain ⟨c, t, hsymbols, last⟩ := locked.execAll_symbols (j := 0) tuned hc xs
  refine ⟨t, ?_, last.ports, last.unit.pd, last.unit.pdf, last.unit.integ, last.unit.ftw, last.nrec, ?_⟩
  · rw [execAll_cons hstart, List.map_append, execAll_append _ _ _ _ hlead]
    exact hsymbols
  · rw [last.unit.idx]; ring

end Sys2Proof.Machine
end

section
/-! PROOFS. The family of spec/44_cdr_fixed.md: the width tests, CDRX.START, one sample of the loop and its overflow,
the invariant, zero phase error.

The checks of CDRX.START and of a sample are one search: the first value of a list that does not fit. Without a phase
error the loop is a clock, as on the real-number path: which bits such a clock reads off its samples is said first,
of the samples alone, and CDRX then follows the clock sample by sample. -/

namespace Sys2Proof.Machine

/-! ### Widths (spec/00_scope.md section 6) -/

/-- A magnitude takes one bit more than its binary digits, and one bit if it is 0. -/
theorem magnitude_width_le_iff (m n : Nat) : (if m = 0 then 1 else Nat.log2 m + 2) ≤ n + 1 ↔ m < 2 ^ n := by
  split
  next h0 => simp [h0]
  next hne => rw [← Nat.log2_lt hne]; omega

/-- A width holds a value exactly when it is at least the value's `width_s`. -/
theorem widthS_le_iff (v : Int) (n : Nat) : widthS v ≤ n + 1 ↔ -(2 ^ n) ≤ v ∧ v < 2 ^ n := by
  rw [widthS, magnitude_width_le_iff]
  have hpow : (0 : Int) < 2 ^ n := by positivity
  zify
  split <;> omega

/-- Settles O40: each clause is the one equivalence, at a width of its own. -/
theorem widthIsTheLeastThatHolds : Obligations.WidthIsTheLeastThatHolds := by
  refine ⟨fun v => ⟨widthS_pos v, ?_⟩, fun n v => ?_⟩
  · have hself : widthS v ≤ widthS v - 1 + 1 := by omega
    obtain ⟨hlo, hhi⟩ := (widthS_le_iff v _).mp hself
    refine ⟨hlo, hhi, fun n hn hlo' hhi' => ?_⟩
    obtain ⟨m, rfl⟩ := Nat.exists_eq_add_of_le' hn
    exact (widthS_le_iff v m).mpr ⟨hlo', hhi'⟩
  · rw [fitsIn_some, widthS_le_iff, Int.le_sub_one_iff]

/-! ### The first value that does not fit -/

/-- The place of the first value that does not fit the width. -/
def firstMisfit (w : Option Nat) (vs : List Int) : Option Nat := vs.findIdx? fun v => !fitsIn w v

theorem firstMisfit_eq_none {w : Option Nat} {vs : List Int} (h : ∀ v ∈ vs, fitsIn w v = true) :
    firstMisfit w vs = none := by
  simpa [firstMisfit] using h

theorem firstMisfit_eq_some {w : Option Nat} {vs : List Int} {j : Nat} {v : Int} (hv : vs[j]? = some v)
    (hfit : fitsIn w v = false) (before : ∀ i < j, ∀ x, vs[i]? = some x → fitsIn w x = true) :
    firstMisfit w vs = some j := by
  obtain ⟨hj, rfl⟩ := List.getElem?_eq_some_iff.mp hv
  refine List.findIdx?_eq_some_iff_getElem.mpr ⟨hj, by simp [hfit], fun i hi => ?_⟩
  simp [before i hi _ (List.getElem?_eq_getElem (hi.trans hj))]

/-- The six latched constants, in the order of their indices 0x40..0x45. -/
def CdrxLatch.values (k : CdrxLatch) : List Int := [k.alpha, k.ki, k.kp, k.imax, k.accsz, k.ftw0]

theorem firstUnfit_eq (w : Option Nat) (k : CdrxLatch) :
    firstUnfit w k = (firstMisfit w k.values).map (0x40 + ·) := by
  simp only [firstUnfit, firstMisfit, CdrxLatch.values, List.findIdx?_cons]
  split_ifs <;> rfl

/-- The values a sample checks, in step order: those of the steps 4 to 7 (spec/44_cdr_fixed.md R166). -/
def checkedValues (k : CdrxLatch) (b : Bit) (u : CdrxUnit) : List Int :=
  [fixedPdf k b u, fixedSum k b u, fixedFtw k b u, fixedNextAcc k b u]

theorem fixedOverflow_eq (w : Option Nat) (k : CdrxLatch) (b : Bit) (u : CdrxUnit) :
    fixedOverflow w k b u = (firstMisfit w (checkedValues k b u)).map fun j => BitVec.ofNat 3 (4 + j) := by
  simp only [fixedOverflow, firstMisfit, checkedValues, List.findIdx?_cons]
  split_ifs <;> rfl

/-! ### CDRX.START (spec/44_cdr_fixed.md R161, R162) -/

theorem fixedStart_incomplete {s : State} {i : Nat} (h : loopConfig s.cfg = .error i) (w : Option Nat) :
    fixedStart w s = .next (raise .badConfig i s) := by
  rw [fixedStart, h]; rfl

section
variable {w : Option Nat} {s : State} {im : RatReg} {az tb : BitVec 32}

theorem fixedStart_misfit (him : s.cfg.integMax = some im) (haz : s.cfg.accSize = some az) (htb : s.cfg.tbC = some tb)
    {j : Nat} (hfit : firstUnfit w (fixedLatch s.cfg im az tb) = some j) :
    fixedStart w s = .next (raise .badConfig j s) := by
  rw [fixedStart, loopConfig_complete him haz htb]
  simp only [hfit, raised_eq]

/-- CDRX.START with a complete configuration whose constants fit replaces CDRX whole. -/
theorem fixedStart_fitting (him : s.cfg.integMax = some im) (haz : s.cfg.accSize = some az) (htb : s.cfg.tbC = some tb)
    (hfit : firstUnfit w (fixedLatch s.cfg im az tb) = none) :
    fixedStart w s = .next ({ s with cdrx :=
      { run := true, prev := false, halt := false, idx := 0, nrec := 0, sat := 0, satFirst := 0, maxw := 0
        faultIdx := 0, faultStep := 0, acc := 0, last := 0, pd := 0, pdf := 0, integ := 0
        ftw := (fixedLatch s.cfg im az tb).ftw0, latch := some (fixedLatch s.cfg im az tb) } }.answered 0 0) := by
  rw [fixedStart, loopConfig_complete him haz htb]
  simp only [hfit]; rfl

end

/-- Settles O37: the constants all fit, or one is the first that does not, or the configuration is incomplete. -/
theorem cdrxStartQuantises : Obligations.CdrxStartQuantises := by
  refine ⟨?_, fun _ => rfl, fun s i h => ?_⟩
  · intro s im az tb him haz htb q vs
    have hvalues : (fixedLatch s.cfg im az tb).values = vs := rfl
    refine ⟨fun hfit => ?_, fun w j v hv hfit before => ?_⟩
    · have hall : firstUnfit Config.fxWidthPred (fixedLatch s.cfg im az tb) = none := by
        rw [firstUnfit_eq, hvalues, firstMisfit_eq_none hfit]; rfl
      exact fixedStart_fitting him haz htb hall
    · have hfirst : firstUnfit w (fixedLatch s.cfg im az tb) = some (0x40 + j) := by
        rw [firstUnfit_eq, hvalues, firstMisfit_eq_some hv hfit before]; rfl
      exact fixedStart_misfit him haz htb hfirst
  · refine (fixedStart_incomplete (loopConfig_incomplete h) _).trans ?_
    rw [raise_eq, BitVec.ofNat_toNat, BitVec.setWidth_eq]; rfl

/-! ### The numbers of one sample (spec/44_cdr_fixed.md R163) -/

theorem fixedPd_eq (k : CdrxLatch) (b : Bit) (u : CdrxUnit) :
    fixedPd k b u = if b = u.prev then u.pd else k.accsz / 2 - u.acc := by
  by_cases h : b = u.prev <;> simp [fixedPd, h]

theorem fixedWraps_iff (u : CdrxUnit) : fixedWraps u = true ↔ u.acc < u.last := decide_eq_true_iff

/-- A sample hits the clamp when its sum is at or beyond a bound (spec/44_cdr_fixed.md R168). -/
theorem fixedHits_iff (k : CdrxLatch) (b : Bit) (u : CdrxUnit) :
    fixedHits k b u = true ↔ k.imax ≤ fixedSum k b u ∨ fixedSum k b u ≤ -k.imax := by
  simp [fixedHits, hitsClampInt]

/-- The checked values in the order in which the steps compute them. -/
theorem checkedValues_eq (k : CdrxLatch) (b : Bit) (u : CdrxUnit) :
    let pd : Int := if b = u.prev then u.pd else k.accsz / 2 - u.acc
    let pdf := pd * k.alpha / 2 ^ 20 + u.pdf * (2 ^ 20 - k.alpha) / 2 ^ 20
    let sum := u.integ + pdf * k.ki / 2 ^ 20
    let integ := clampInt sum (-k.imax) k.imax
    let ftw := k.ftw0 + pdf * k.kp / 2 ^ 20 + integ
    checkedValues k b u = [pdf, sum, ftw, u.acc + ftw] := by
  simp only [checkedValues, fixedNextAcc, fixedFtw, fixedInteg, fixedSum, fixedPdf, fixedPd_eq]; rfl

/-! ### A sample of a running unit -/

/-- What a committed sample leaves whose bit is not forwarded: the loop's own step, and its response. -/
def State.fixedSampled (s : State) (k : CdrxLatch) (b : Bit) : State :=
  (fixedAdvance k b s).1.setResponse (some ((fixedAdvance k b s).2.getD okResponse))

section
variable (s : State) (k : CdrxLatch) (b : Bit)

@[simp] theorem fixedSampled_cdrx : (s.fixedSampled k b).cdrx = fixedSample k b s.cdrx := by
  rw [State.fixedSampled, State.setResponse_cdrx, fixedAdvance_state]

@[simp] theorem fixedSampled_cfg : (s.fixedSampled k b).cfg = s.cfg := by
  rw [State.fixedSampled, State.setResponse_cfg, fixedAdvance_state]

@[simp] theorem fixedSampled_ports : (s.fixedSampled k b).ports =
    if fixedWraps s.cdrx then { s.ports with recX := s.ports.recX ++ [b] } else s.ports := by
  rw [State.fixedSampled, State.setResponse_ports, fixedAdvance_state]

/-- Everything such a sample leaves, written out. -/
theorem fixedSampled_eq :
    let t : State := { s with
      ports := { s.ports with recX := s.ports.recX ++ (if s.cdrx.acc < s.cdrx.last then [b] else []) }
      status := if fixedHits k b s.cdrx then s.status ||| 0x10 else s.status
      cdrx := fixedSample k b s.cdrx }
    s.fixedSampled k b =
      if fixedHits k b s.cdrx then t.answered 0x04 (BitVec.ofNat 64 s.cdrx.idx) else t.answered 0 0 := by
  rw [State.fixedSampled, fixedAdvance_state, fixedAdvance_pending]
  simp only [fixedWraps_iff]
  split <;> split <;> simp <;> rfl

end

theorem chainSource_ne_fixed {c : CfgRegs} (h : c.chain.extractLsb' 0 2 ≠ 2) : chainSource c ≠ some .fixed := by
  rw [chainSource, if_neg h]
  split <;> nofun

section
variable {w : Option Nat} {s : State} {k : CdrxLatch} {b : Bit}

theorem fixedCommand_latched (hrun : s.cdrx.run = true) (hhalt : s.cdrx.halt = false) (hk : s.cdrx.latch = some k) :
    fixedCommand w b s = fixedStep w k b s := by
  simp only [fixedCommand, hrun, hhalt, hk, Bool.not_false, Bool.and_true, ↓reduceIte]

/-- A sample of a running unit whose values fit, with another source chained or no bit recovered. -/
theorem fixedCommand_unforwarded (hrun : s.cdrx.run = true) (hhalt : s.cdrx.halt = false)
    (hk : s.cdrx.latch = some k) (h : s.cfg.chain.extractLsb' 0 2 ≠ 2 ∨ ¬s.cdrx.acc < s.cdrx.last)
    (hfit : ∀ v ∈ checkedValues k b s.cdrx, fitsIn w v = true) :
    fixedCommand w b s = .next (s.fixedSampled k b) := by
  have hforward : ¬(fixedWraps s.cdrx && chainSource s.cfg == some .fixed) = true := by
    rw [Bool.and_eq_true, fixedWraps_iff, beq_iff_eq]
    rintro ⟨hwraps, hfixed⟩
    exact h.elim (fun hc => chainSource_ne_fixed hc hfixed) fun hw => hw hwraps
  rw [fixedCommand_latched hrun hhalt hk, fixedStep, fixedOverflow_eq, firstMisfit_eq_none hfit]
  exact congrArg (finish _) (if_neg hforward)

/-- A sample of a running unit whose `j`-th checked value is the first that does not fit. -/
theorem fixedCommand_overflow (hrun : s.cdrx.run = true) (hhalt : s.cdrx.halt = false)
    (hk : s.cdrx.latch = some k) {j : Nat} (hfirst : firstMisfit w (checkedValues k b s.cdrx) = some j) :
    fixedCommand w b s = fixedFault (BitVec.ofNat 3 (4 + j)) s := by
  rw [fixedCommand_latched hrun hhalt hk, fixedStep, fixedOverflow_eq, hfirst]; rfl

end

/-- Settles O38: the numbers of the sample are those of the statement, and both commands are the one sample. -/
theorem cdrxSampleCommits : Obligations.CdrxSampleCommits := by
  intro s b k hrun hhalt hk hforward u pd pdf sum integ ftw hpdf hsum hftw hacc
  have hvalues : checkedValues k b s.cdrx = [pdf, sum, ftw, u.acc + ftw] := checkedValues_eq k b s.cdrx
  have hfit : ∀ v ∈ checkedValues k b s.cdrx, fitsIn Config.fxWidthPred v = true := by
    rw [hvalues]
    simpa using ⟨hpdf, hsum, hftw, hacc⟩
  have sample := fixedCommand_unforwarded hrun hhalt hk hforward hfit
  rw [fixedSampled_eq] at sample
  simp only [fixedSample, fixedHits_iff, fixedNextAcc, fixedFtw, fixedInteg, fixedSum, fixedPdf, fixedPd_eq,
    fixedWraps_iff, Bool.and_eq_true, beq_iff_eq] at sample
  exact ⟨sample, fun a ha => (congrArg (fixedCommand _ · s) (slice_eq ha)).trans sample⟩

/-- Settles O39: the first checked value that does not fit is the fault that is raised. -/
theorem cdrxOverflowIsPrecise : Obligations.CdrxOverflowIsPrecise := by
  refine ⟨?_, fun _ _ => rfl, fun _ _ => rfl, fitsIn_none⟩
  intro w s b k j v hrun hhalt hk u pd pdf sum integ ftw hv hfit before
  have hvalues : checkedValues k b s.cdrx = [pdf, sum, ftw, u.acc + ftw] := checkedValues_eq k b s.cdrx
  rw [← hvalues] at hv before
  exact fixedCommand_overflow hrun hhalt hk (firstMisfit_eq_some hv hfit before)

/-! ### The invariant (spec/44_cdr_fixed.md R171) -/

/-- Only an overflow halts the unit, and it sets `STATUS.OVF`. -/
theorem fixedCommand_halts {w : Option Nat} {b : Bit} {s t : State} (ht : fixedCommand w b s = .next t)
    (hgoing : s.cdrx.halt = false) (hhalt : t.cdrx.halt = true) : t.status.getLsbD 2 = true := by
  obtain he | ⟨-, -, he⟩ | ⟨step, -, he⟩ | ⟨k, p, g, -, -, -, hg, he⟩ := fixedCommand_cases w b s <;> rw [he] at ht
  · cases ht
    exact absurd (hgoing.symm.trans hhalt) nofun
  · cases ht
  · cases ht
    exact (withFlag_getLsbD .ovf _ _).trans (Bool.or_true _)
  · have own : (fixedAdvance k b s).1.cdrx.halt = false := by rw [fixedAdvance_state]; exact hgoing
    have hstate : g.state.cdrx.halt = false := by
      obtain rfl | rfl := hg
      · exact own
      · obtain ⟨-, -, -, hcdrx, -⟩ := forwardDem_frame _ b _ (Progress.eq_state (forwardDem b (fixedAdvance k b s).1))
        rw [hcdrx, own]
    obtain ⟨r, hr⟩ := finish_state p g
    cases hr.symm.trans ht
    exact absurd (hstate.symm.trans hhalt) nofun

/-- The commands of CDRX have the opcodes 0x38 to 0x3A. -/
theorem cdrx_of_opcode {i : Instr} (h : 0x38 ≤ (opOf (encode i)).toNat ∧ (opOf (encode i)).toNat ≤ 0x3A) :
    i = .cdrxStart ∨ (∃ b, i = .cdrxSample b) ∨ ∃ a, i = .cdrxAmp a := by
  cases i with
  | cdrxStart => exact .inl rfl
  | cdrxSample b => exact .inr (.inl ⟨b, rfl⟩)
  | cdrxAmp a => exact .inr (.inr ⟨a, rfl⟩)
  | _ => simp only [encode, opOf_mkWord] at h; exact absurd h (by decide)

/-- A command that halts CDRX leaves `STATUS.OVF` set: it is one of CDRX, and START and RESET do not halt. -/
theorem exec_halts {i : Instr} {s t : State} (ht : exec i s = .next t) (hgoing : s.cdrx.halt = false)
    (hhalt : t.cdrx.halt = true) : t.status.getLsbD 2 = true := by
  by_cases hreset : i = .reset
  · subst hreset
    cases ht
    cases hhalt
  have hchanged : t.cdrx ≠ s.cdrx := fun he => by rw [he, hgoing] at hhalt; cases hhalt
  obtain ⟨confined, -⟩ := exec_confined i hreset s t ht
  obtain rfl | ⟨b, rfl⟩ | ⟨a, rfl⟩ := cdrx_of_opcode (not_not.mp (mt confined.cdrx hchanged))
  · obtain ⟨n, he⟩ | ⟨im, az, tb, -, -, -, -, he⟩ := fixedStart_cases Config.fxWidthPred s <;> cases he.symm.trans ht
    · exact absurd rfl hchanged
    · cases hhalt
  · exact fixedCommand_halts (b := b) ht hgoing hhalt
  · exact fixedCommand_halts (b := slice a) ht hgoing hhalt

/-- Settles O41: a good state steps to a good one, and what its CDRX promises is the invariant. -/
theorem cdrxInvariantAfterEveryCommand : Obligations.CdrxInvariantAfterEveryCommand := by
  intro i s h
  obtain ⟨t, ht, good⟩ := (exec_form i s).good h
  refine ⟨t, ht, fun k hk => ?_, good.cdrx.fitting, exec_halts ht, good.cdrx⟩
  obtain ⟨acc_nonneg, acc_lt⟩ := good.cdrx.acc k hk
  exact ⟨acc_nonneg, acc_lt, good.cdrx.integ k hk⟩

/-! ### What a clock reads off its samples -/

/-- From sample `n` on of a clock whose period is `2h` samples, after the level `b`: the level changes only on
half-cycle marks of the samples `bs`, and the bits `ys` are those at the ends of the periods. -/
inductive Paced (h : Nat) : Nat → Bit → List Bit → List Bit → Prop
  | nil (n : Nat) (b : Bit) : Paced h n b [] []
  | cons {n : Nat} {b x : Bit} {bs ys : List Bit} (hx : x = b ∨ n % (2 * h) = h) (rest : Paced h (n + 1) x bs ys) :
    Paced h n b (x :: bs) ((if 2 * h ∣ n ∧ 0 < n then [x] else []) ++ ys)

section
variable {h n : Nat} {b x : Bit} {bs ys : List Bit}

/-- Samples that hold the level, none of them where a period ends. -/
theorem Paced.held {m : Nat} (hm : ∀ i < m, ¬2 * h ∣ n + i) (rest : Paced h (n + m) b bs ys) :
    Paced h n b (List.replicate m b ++ bs) ys := by
  induction m generalizing n with
  | zero => exact rest
  | succ m ih =>
    have hlater : ∀ i < m, ¬2 * h ∣ n + 1 + i := fun i hi =>
      Nat.add_right_comm n 1 i ▸ hm (i + 1) (Nat.succ_lt_succ hi)
    have first := Paced.cons (.inl rfl) (ih hlater (Nat.add_right_comm n 1 m ▸ rest))
    rwa [if_neg fun hd => hm 0 m.succ_pos hd.1] at first

/-- Half a period of one level. -/
theorem Paced.half (hpos : 0 < h) {q : Nat} (hx : x = b ∨ q % 2 = 1) (rest : Paced h (h * (q + 1)) x bs ys) :
    Paced h (h * q) b (List.replicate h x ++ bs) ((if 2 ∣ q ∧ 0 < q then [x] else []) ++ ys) := by
  have hmark : x = b ∨ h * q % (2 * h) = h := hx.imp_right fun hq => by
    rw [Nat.mul_comm 2, Nat.mul_mod_mul_left, hq, Nat.mul_one]
  have hend : (2 * h ∣ h * q ∧ 0 < h * q) ↔ 2 ∣ q ∧ 0 < q := by
    rw [Nat.mul_comm 2, Nat.mul_dvd_mul_iff_left hpos, Nat.mul_pos_iff_of_pos_left hpos]
  have hheld : ∀ i < h - 1, ¬2 * h ∣ h * q + 1 + i := fun i hi hd => by
    have hd' : h ∣ h * q + (1 + i) := Nat.add_assoc _ _ _ ▸ (Nat.dvd_mul_left h 2).trans hd
    have hle := Nat.le_of_dvd (by omega) ((Nat.dvd_add_right (Nat.dvd_mul_right h q)).mp hd')
    omega
  have hnext : h * (q + 1) = h * q + 1 + (h - 1) := by rw [Nat.mul_add_one]; omega
  have hrep : List.replicate h x = x :: List.replicate (h - 1) x := by
    rw [← List.replicate_succ, Nat.sub_add_cancel hpos]
  have first := Paced.cons hmark (Paced.held hheld (hnext ▸ rest))
  simp only [hend] at first
  rwa [hrep]

/-- Symbols of a period each, begun on a half-cycle mark, are read off one bit each. -/
theorem paced_symbols (hpos : 0 < h) (xs : List Bit) (j : Nat) (b : Bit) :
    Paced h (h * (2 * j + 1)) b (xs.flatMap fun x => List.replicate (2 * h) x) xs := by
  induction xs generalizing j b with
  | nil => exact .nil _ _
  | cons x xs ih =>
    have second := Paced.half hpos (q := 2 * j + 2) (.inl rfl) (ih (j + 1) x)
    have whole := Paced.half hpos (q := 2 * j + 1) (.inr (by omega)) (b := b) second
    rw [if_neg (by omega), if_pos (by omega)] at whole
    have hhalves : List.replicate (2 * h) x = List.replicate h x ++ List.replicate h x := by
      rw [Nat.two_mul, List.replicate_add]
    rw [List.flatMap_cons, hhalves, List.append_assoc]
    exact whole

/-- The samples of R147: half a period at rest, then the symbols. -/
theorem paced_stream (hpos : 0 < h) (xs : List Bit) :
    Paced h 0 false (List.replicate h false ++ xs.flatMap fun x => List.replicate (2 * h) x) xs :=
  Paced.half hpos (q := 0) (.inl rfl) (paced_symbols hpos xs 0 false)

end

theorem length_symbols (h : Nat) (xs : List Bit) :
    (List.replicate h false ++ xs.flatMap fun x => List.replicate (2 * h) x).length = h + 2 * h * xs.length := by
  simp [List.length_flatMap, Nat.mul_comm]

/-! ### Zero phase error (spec/44_cdr_fixed.md R172) -/

@[simp] theorem fxMul_zero (a : Int) : fxMul 0 a = 0 := by simp [fxMul, fxShift]

/-- Constants whose accumulator takes `2h` nominal tuning words to wrap, and fits the width. -/
structure FixedTuned (w : Option Nat) (k : CdrxLatch) (h : Nat) : Prop where
  half : 0 < h
  ftw0 : 0 < k.ftw0
  accsz : k.accsz = ((2 * h : Nat) : Int) * k.ftw0
  imax : 0 ≤ k.imax
  fitting : fitsIn w k.accsz = true

/-- CDRX after `n` samples none of which had a phase error. -/
structure FixedZeroError (k : CdrxLatch) (h n : Nat) (u : CdrxUnit) : Prop where
  run : u.run = true
  halt : u.halt = false
  latch : u.latch = some k
  pd : u.pd = 0
  pdf : u.pdf = 0
  integ : u.integ = 0
  ftw : u.ftw = k.ftw0
  acc : u.acc = ((n % (2 * h) : Nat) : Int) * k.ftw0
  last : u.last = (((n - 1) % (2 * h) : Nat) : Int) * k.ftw0
  idx : u.idx = n
  maxw : u.maxw = if n = 0 then 0 else 1

section
variable {w : Option Nat} {k : CdrxLatch} {h n : Nat} {u : CdrxUnit} {b : Bit}

/-- On the half-cycle mark, or between transitions, the phase error is 0. -/
theorem FixedZeroError.fixedPd_eq_zero (hu : FixedZeroError k h n u) (hk : FixedTuned w k h)
    (hb : b = u.prev ∨ n % (2 * h) = h) : fixedPd k b u = 0 := by
  rw [fixedPd_eq]
  split
  next => exact hu.pd
  next hne =>
    have hmiddle : k.accsz = 2 * ((h : Int) * k.ftw0) := by rw [hk.accsz]; push_cast; ring
    rw [hu.acc, hb.resolve_left hne, hmiddle, Int.mul_ediv_cancel_left _ two_ne_zero, sub_self]

/-- Everything a sample computes when there is no phase error. -/
theorem FixedZeroError.numbers (hu : FixedZeroError k h n u) (hk : FixedTuned w k h)
    (hb : b = u.prev ∨ n % (2 * h) = h) :
    fixedPdf k b u = 0 ∧ fixedSum k b u = 0 ∧ fixedInteg k b u = 0 ∧ fixedFtw k b u = k.ftw0 ∧
      fixedNextAcc k b u = ((n % (2 * h) + 1 : Nat) : Int) * k.ftw0 := by
  have hpdf : fixedPdf k b u = 0 := by simp [fixedPdf, hu.fixedPd_eq_zero hk hb, hu.pdf]
  have hsum : fixedSum k b u = 0 := by simp [fixedSum, hpdf, hu.integ]
  have hinteg : fixedInteg k b u = 0 := by
    have := hk.imax
    rw [fixedInteg, hsum, clampInt, if_neg (by omega), if_neg (by omega)]
  have hftw : fixedFtw k b u = k.ftw0 := by simp [fixedFtw, hpdf, hinteg]
  refine ⟨hpdf, hsum, hinteg, hftw, ?_⟩
  rw [fixedNextAcc, hftw, hu.acc]
  push_cast
  ring

/-- Nothing such a sample computes is negative or beyond the accumulator's size, so it fits. -/
theorem FixedZeroError.fits_checked (hu : FixedZeroError k h n u) (hk : FixedTuned w k h)
    (hb : b = u.prev ∨ n % (2 * h) = h) : ∀ v ∈ checkedValues k b u, fitsIn w v = true := by
  have multiple_fits (m : Nat) (hm : m ≤ 2 * h) : fitsIn w ((m : Int) * k.ftw0) = true := by
    refine fitsIn_between w 0 _ k.accsz (fitsIn_zero w) hk.fitting (Int.mul_nonneg m.cast_nonneg hk.ftw0.le) ?_
    rw [hk.accsz]
    exact Int.mul_le_mul_of_nonneg_right (by exact_mod_cast hm) hk.ftw0.le
  have hpos := hk.half
  have hftw := multiple_fits 1 (by omega)
  rw [Nat.cast_one, one_mul] at hftw
  obtain ⟨epdf, esum, -, eftw, eacc⟩ := hu.numbers hk hb
  rw [checkedValues, epdf, esum, eftw, eacc]
  simpa using ⟨hftw, multiple_fits _ (Nat.mod_lt n (by omega))⟩

/-- A sample without a phase error advances the accumulator by the nominal tuning word. -/
theorem FixedZeroError.next (hu : FixedZeroError k h n u) (hk : FixedTuned w k h)
    (hb : b = u.prev ∨ n % (2 * h) = h) : FixedZeroError k h (n + 1) (fixedSample k b u) := by
  obtain ⟨hpdf, -, hinteg, hftw, hacc⟩ := hu.numbers hk hb
  refine ⟨hu.run, hu.halt, hu.latch, hu.fixedPd_eq_zero hk hb, hpdf, hinteg, hftw, ?_, hu.acc,
    congrArg (· + 1) hu.idx, ?_⟩
  · calc fixedNextAcc k b u % k.accsz
        = (((n % (2 * h) + 1) % (2 * h) : Nat) : Int) * k.ftw0 := by
          rw [hacc, hk.accsz, mul_comm, mul_comm _ k.ftw0, Int.mul_emod_mul_of_pos _ _ hk.ftw0, mul_comm,
            Int.natCast_mod]
      _ = (((n + 1) % (2 * h) : Nat) : Int) * k.ftw0 := by rw [Nat.mod_add_mod]
  · have hmaxw : (fixedSample k b u).maxw = max u.maxw (widthS (fixedPdf k b u)) := rfl
    rw [hmaxw, hpdf, hu.maxw, if_neg n.succ_ne_zero]
    split <;> rfl

/-- A bit is recovered at the samples `2h`, `4h`, `6h`, and so on. -/
theorem FixedZeroError.wraps_iff (hu : FixedZeroError k h n u) (hk : FixedTuned w k h) :
    fixedWraps u = true ↔ 2 * h ∣ n ∧ 0 < n := by
  have := hk.half
  rw [fixedWraps_iff, hu.acc, hu.last, Int.mul_lt_mul_right hk.ftw0, Nat.cast_lt,
    mod_lt_pred_mod_iff (by omega)]

end

/-- The block `n` samples after `s`, none of which had a phase error on the fixed-point path: the last level was `b`,
and the bits `ys` have been recovered. -/
structure FixedRecovering (s : State) (k : CdrxLatch) (h n : Nat) (b : Bit) (ys : List Bit) (t : State) : Prop where
  unit : FixedZeroError k h n t.cdrx
  prev : t.cdrx.prev = b
  nrec : t.cdrx.nrec = ys.length
  cfg : t.cfg = s.cfg
  ports : t.ports = { s.ports with recX := s.ports.recX ++ ys }

section
variable {w : Option Nat} {s t : State} {k : CdrxLatch} {h n : Nat} {b : Bit} {ys : List Bit}

/-- One sample. -/
theorem FixedRecovering.sample (ht : FixedRecovering s k h n b ys t) (hk : FixedTuned w k h)
    (hc : s.cfg.chain.extractLsb' 0 2 ≠ 2) {x : Bit} (hx : x = b ∨ n % (2 * h) = h) :
    ∃ t', fixedCommand w x t = .next t' ∧
      FixedRecovering s k h (n + 1) x (ys ++ if 2 * h ∣ n ∧ 0 < n then [x] else []) t' := by
  have hx' : x = t.cdrx.prev ∨ n % (2 * h) = h := by rwa [ht.prev]
  refine ⟨_, fixedCommand_unforwarded ht.unit.run ht.unit.halt ht.unit.latch (.inl (ht.cfg ▸ hc))
    (ht.unit.fits_checked hk hx'), ?_, ?_, ?_, ?_, ?_⟩
  · rw [fixedSampled_cdrx]
    exact ht.unit.next hk hx'
  · rw [fixedSampled_cdrx]; rfl
  · rw [fixedSampled_cdrx, fixedSample]
    simp only [ht.unit.wraps_iff hk, ht.nrec]
    split <;> simp
  · rw [fixedSampled_cfg, ht.cfg]
  · rw [fixedSampled_ports, ht.ports]
    simp only [ht.unit.wraps_iff hk]
    split <;> simp

/-- CDRX reads off its samples what the clock does. -/
theorem FixedRecovering.feed {bs zs : List Bit} (hp : Paced h n b bs zs) (ht : FixedRecovering s k h n b ys t)
    (hk : FixedTuned w k h) (hc : s.cfg.chain.extractLsb' 0 2 ≠ 2) :
    ∃ c t', fixedFeed w bs t = .next t' ∧ FixedRecovering s k h (n + bs.length) c (ys ++ zs) t' := by
  induction hp generalizing ys t with
  | nil n b => exact ⟨b, t, rfl, by simpa using ht⟩
  | @cons n b x bs zs hx rest ih =>
    obtain ⟨u, hu, next⟩ := ht.sample hk hc hx
    obtain ⟨c, t', ht', last⟩ := ih next
    rw [List.append_assoc, Nat.add_right_comm] at last
    refine ⟨c, t', ?_, last⟩
    rw [fixedFeed, hu]
    exact ht'

end

section
variable {w : Option Nat} {im : RatReg} {az tb : BitVec 32} {h : Nat}

/-- With `TB_C = 4h` and no rounding, `4h` nominal tuning words are twice the accumulator's size
(spec/44_cdr_fixed.md R172). -/
theorem fixedLatch_exact (c : CfgRegs) (htb : tb.toNat = 4 * h) (hexact : (2 * az.toNat * 2 ^ 20) % (4 * h) = 0) :
    (fixedLatch c im az tb).ftw0 * ((4 * h : Nat) : Int) = 2 * az.toNat * 2 ^ 20 := by
  rw [← htb] at hexact ⊢
  have hdvd : (tb.toNat : Int) ∣ 2 * az.toNat * 2 ^ 20 := by exact_mod_cast Nat.dvd_of_mod_eq_zero hexact
  exact Int.ediv_mul_cancel hdvd

theorem fixedLatch_tuned {c : CfgRegs} (haz : az ≠ 0) (htb : tb.toNat = 4 * h) (hpos : 0 < h) (him : 0 ≤ im.num.toInt)
    (hexact : (2 * az.toNat * 2 ^ 20) % (4 * h) = 0) (hfit : firstUnfit w (fixedLatch c im az tb) = none) :
    FixedTuned w (fixedLatch c im az tb) h := by
  obtain ⟨-, -, -, -, haccsz, -⟩ := firstUnfit_none _ _ hfit
  have hsize : (0 : Int) < az.toNat := by exact_mod_cast toNat_pos haz
  have hwords := fixedLatch_exact (im := im) c htb hexact
  push_cast at hwords
  refine ⟨hpos, ?_, ?_, quantise_nonneg him, haccsz⟩
  · refine pos_of_mul_pos_left (b := 4 * (h : Int)) ?_ (by positivity)
    rw [hwords]; positivity
  · change (az.toNat : Int) * 2 ^ 20 = _
    push_cast
    linarith

/-- CDRX.START begins without a phase error. -/
theorem fixedStart_recovering {s : State} (him : s.cfg.integMax = some im) (haz : s.cfg.accSize = some az)
    (htb : s.cfg.tbC = some tb) (hfit : firstUnfit w (fixedLatch s.cfg im az tb) = none) (h : Nat) :
    ∃ t, fixedStart w s = .next t ∧ FixedRecovering s (fixedLatch s.cfg im az tb) h 0 false [] t := by
  refine ⟨_, fixedStart_fitting him haz htb hfit,
    ⟨rfl, rfl, rfl, rfl, rfl, rfl, rfl, ?_, ?_, rfl, rfl⟩, rfl, rfl, rfl, ?_⟩
  · rw [Nat.zero_mod, Nat.cast_zero, zero_mul]; rfl
  · rw [Nat.zero_sub, Nat.zero_mod, Nat.cast_zero, zero_mul]; rfl
  · rw [List.append_nil]; rfl

end

/-- The commands of CDRX at this block's width are a run at that width. -/
theorem execAll_cdrxSamples (bs : List Bit) (s : State) :
    execAll (bs.map .cdrxSample) s = fixedFeed Config.fxWidthPred bs s := by
  induction bs generalizing s with
  | nil => rfl
  | cons b bs ih => simp only [List.map_cons, execAll, fixedFeed, ih]; rfl

/-- Settles O42: START begins on the clock, and CDRX reads the symbols off as the clock does. -/
theorem zeroPhaseErrorFixed : Obligations.ZeroPhaseErrorFixed := by
  refine ⟨fun w s im az tb h xs him haz htb hne hperiod hpos hnum hc hexact hfit => ?_, fun bs s => ?_⟩
  · have tuned := fixedLatch_tuned hne hperiod hpos hnum hexact hfit
    obtain ⟨s0, hstart, started⟩ := fixedStart_recovering him haz htb hfit h
    obtain ⟨c, t, hfeed, last⟩ := started.feed (paced_stream hpos xs) tuned hc
    rw [Nat.zero_add, length_symbols] at last
    refine ⟨t, ?_, last.ports, last.unit.pd, last.unit.pdf, last.unit.integ, ?_, ?_, last.nrec, last.unit.idx⟩
    · rw [fixedRun, hstart]; exact hfeed
    · rw [last.unit.ftw, hperiod]
      exact fixedLatch_exact s.cfg hperiod hexact
    · rw [last.unit.maxw, if_neg (by omega)]
  · simp only [execAll, fixedRun, execAll_cdrxSamples]; rfl

end Sys2Proof.Machine
end

section
/-! PROOFS. The family of spec/45_system_commands.md: NOP, RESET and CLRSTAT, `WR` of a legal value, `RD` of the
configuration registers.

Each `WR` command is `writeReg` with its own check and each `RD` command is `readReg` with its own value, so a write or a
read is said once here and a command only adds what its check asks or what its value is. -/

namespace Sys2Proof.Machine

/-! ### NOP and RESET (spec/45_system_commands.md R185, R186) -/

/-- Settles O8: both commands end normally, NOP where it began and RESET in the reset state with the port logs and the
host's words put back. -/
theorem nopAndReset : Obligations.NopAndReset := ⟨fun s => done_eq s, fun _ => done_eq _⟩

/-! ### CLRSTAT (R187) -/

/-- The word of CLRSTAT is its opcode above its mask. -/
theorem ofNat_clrstat_word (mask : BitVec 16) :
    BitVec.ofNat 72 (0x020000000000000000 + mask.toNat) = encode (.clrstat mask) := by
  apply BitVec.eq_of_toNat_eq
  rw [encode, mkWord, toNat_append_eq_add]
  simp only [BitVec.ofNat_eq_ofNat, BitVec.toNat_ofNat, BitVec.toNat_setWidth]
  omega

/-- Clearing the masked flags, bit by bit. -/
theorem clearFlags_getLsbD (mask : BitVec 16) (v : BitVec 64) (i : Nat) :
    (clearFlags mask v).getLsbD i = (v.getLsbD i && !mask.getLsbD i) := by
  by_cases hi : i < 64
  · simp [clearFlags, hi]
  · simp [clearFlags, BitVec.getLsbD_of_ge v i (by omega)]

/-- The flags of R18 are the bits below 11. -/
theorem flagBits_getLsbD (i : Nat) : (0x7FF : BitVec 16).getLsbD i = decide (i < 11) := by
  by_cases hi : i < 16
  · exact (by decide : ∀ j : Fin 16, (0x7FF : BitVec 16).getLsbD j = decide (j.val < 11)) ⟨i, hi⟩
  · rw [BitVec.getLsbD_of_ge _ i (by omega), decide_eq_false (by omega)]

/-- The mask bits of reserved flags clear nothing that is not already 0. -/
theorem clearFlags_and_flagBits (mask : BitVec 16) {v : BitVec 64} (h : v.toNat < 2 ^ 11) :
    clearFlags (mask &&& 0x7FF) v = clearFlags mask v := by
  apply BitVec.eq_of_getLsbD_eq; intro i _
  rw [clearFlags_getLsbD, clearFlags_getLsbD, BitVec.getLsbD_and, flagBits_getLsbD]
  by_cases hflag : i < 11
  · rw [decide_eq_true hflag, Bool.and_true]
  · have hreserved : v.getLsbD i = false :=
      Nat.testBit_lt_two_pow (h.trans_le (Nat.pow_le_pow_right (by decide) (by omega)))
    rw [hreserved, Bool.false_and, Bool.false_and]

/-- CLRSTAT replaces `STATUS` and nothing else. -/
theorem exec_clrstat (s : State) (mask : BitVec 16) :
    exec (.clrstat mask) s = .next ({ s with status := clearFlags mask s.status }.answered 0 0) := done_eq _

/-- Settles O9: CLRSTAT's word is its encoding, and what it does is `clearFlags` on `STATUS`. -/
theorem clrstatClearsTheMask : Obligations.ClrstatClearsTheMask := by
  refine ⟨fun mask => ?_, fun s mask => ⟨_, exec_clrstat s mask, clearFlags_getLsbD mask s.status⟩, fun s mask h => ?_⟩
  · rw [ofNat_clrstat_word]
    exact decodeInvertsEncode (.clrstat mask)
  · rw [exec_clrstat, exec_clrstat, clearFlags_and_flagBits mask h]

/-! ### WR of a legal value (R188) -/

/-- Writing a legal value stores the new configuration and changes nothing else. -/
theorem writeReg_legal {legal : Bool} (op : Nat) (cfg : CfgRegs) (s : State) (h : legal = true) :
    writeReg op legal cfg s = .next ({ s with cfg := cfg }.answered 0 0) := by rw [writeReg_eq, if_pos h]; rfl

theorem legalIntegMax_iff (r : RatReg) : legalIntegMax r = true ↔ r.den ≠ 0 ∧ 0 ≤ r.num.toInt := by
  simp [legalIntegMax]

/-- The low two bits of a chain value select the source. -/
theorem legalChain_iff (v : BitVec 3) : legalChain v = true ↔ v.toNat % 4 ≠ 3 := by
  simp [legalChain, BitVec.toNat_eq]

theorem legalMarkerLen_iff (v : BitVec 7) : legalMarkerLen v = true ↔ 1 ≤ v.toNat ∧ v.toNat ≤ 64 := by
  simp [legalMarkerLen]

/-- Settles O47: each value is one its register's check accepts. -/
theorem writeStoresLegalValue : Obligations.WriteStoresLegalValue := fun s =>
  ⟨fun _ _ hd => writeReg_legal 0x40 _ s (bne_iff_ne.mpr hd),
    fun _ _ hd => writeReg_legal 0x41 _ s (bne_iff_ne.mpr hd),
    fun _ _ hd => writeReg_legal 0x42 _ s (bne_iff_ne.mpr hd),
    fun n d hd hn => writeReg_legal 0x43 _ s ((legalIntegMax_iff ⟨n, d⟩).mpr ⟨hd, hn⟩),
    fun _ hv => writeReg_legal 0x44 _ s (bne_iff_ne.mpr hv),
    fun _ hv => writeReg_legal 0x45 _ s (bne_iff_ne.mpr hv),
    fun v hv => writeReg_legal 0x46 _ s ((legalChain_iff v).mpr hv),
    fun _ => writeReg_legal 0x47 _ s rfl,
    fun v hlo hhi => writeReg_legal 0x48 _ s ((legalMarkerLen_iff v).mpr ⟨hlo, hhi⟩)⟩

/-! ### RD of the configuration registers (R189) -/

/-- The pair of a rational register as a number: the numerator above the denominator. -/
theorem valueRat_eq (r : RatReg) : valueRat r = BitVec.ofNat 64 (r.num.toNat * 2 ^ 32 + r.den.toNat) :=
  eq_ofNat_of_toNat (toNat_append_eq_add r.num r.den)

section
variable {α : Type} {value : α → BitVec 64} {reg : Option α} (idx : Nat) (s : State)

/-- A read of a register that has been written answers the value it holds. -/
theorem readReg_written {a : α} {w : BitVec 64} (hreg : reg = some a) (h : value a = w) :
    readReg idx (reg.map value) s = .next (s.answered 0 w) := hreg ▸ readReg_answered idx h

/-- A read of an unwritten register raises BadConfig with the register's index. -/
theorem readReg_unwritten (hreg : reg = none) : readReg idx (reg.map value) s =
    .next ({ s with status := s.status ||| 0x100 }.answered 0x12 (BitVec.ofNat 64 idx)) := by
  rw [hreg, Option.map_none, readReg_none, raise_eq]; rfl

end

/-- Settles O49: the three registers that can be unwritten by cases, each value as the number it stands for. -/
theorem readConfiguration : Obligations.ReadConfiguration := fun s =>
  ⟨readReg_answered 0x00 (valueRat_eq _), readReg_answered 0x01 (valueRat_eq _), readReg_answered 0x02 (valueRat_eq _),
    fun r hr => readReg_written 0x03 s hr (valueRat_eq r), readReg_unwritten 0x03 s,
    fun v hv => readReg_written 0x04 s hv (valueBits_eq v), readReg_unwritten 0x04 s,
    fun v hv => readReg_written 0x05 s hv (valueBits_eq v), readReg_unwritten 0x05 s,
    readReg_answered 0x06 (valueBits_eq _), readReg_answered 0x07 rfl, readReg_answered 0x08 (valueBits_eq _)⟩

end Sys2Proof.Machine
end

section
/-! PROOFS. The family of spec/60_exceptions.md: what raising, noting and responding do, the refusal NotRunning, and the
precedence of CodeViolation.

A pending response is given when a command ends without a raise. An event raised in the meantime ends the command with
its own response and the pending one is lost: that is `finish_ended`, and the precedence of R211 rests on it. -/

namespace Sys2Proof.Machine

/-! ### CodeViolation at the end of the chain (spec/60_exceptions.md R211) -/

/-- A payload bit that violates RLL27 ends a step of the scanner. -/
theorem scnStep_violation {s : State} {c : Bit} (hp : s.scn.phase = .payload) (hs : s.scn.dscheme = .rll27)
    (hnot : rllPattern (collectedBits s.scn ++ [c]) = none) (hx : isRllPrefix (collectedBits s.scn ++ [c]) = false) :
    scnStep c s =
      .ended (raise .codeViolation s.scn.idx (s.setScn { s.scn with halt := true, evidx := s.scn.idx })) := by
  rw [scnStep_payload s c hp, payStep_ended hs (rllDecode_violation hnot hx)]

/-- A running DEM that feeds a running SCN gives it the bit it emits. -/
theorem forwardDem_chained {s : State} {b : Bit} (hrun : s.dem.run = true) (hhave : s.dem.haveSample = true)
    (hchain : chainsScn s.cfg = true) (hscn : scnRunning s.scn = true) :
    forwardDem b s = scnStep (s.dem.prev ^^ b) { s with
      dem := { s.dem with prev := b, cnt := s.dem.cnt + 1 }
      ports := { s.ports with demod := s.ports.demod ++ [s.dem.prev ^^ b] } } := by
  rw [forwardDem_eq, if_pos hrun, demStep_later s b hhave, if_pos hchain, ← hhave]
  exact if_pos hscn

/-- A sample that changes the level while the scanner has collected a single 1: the 1 that DEM emits violates RLL27,
because no codeword begins with two 1s. -/
theorem forwardDem_two_ones {s : State} {b : Bit} (hrun : s.dem.run = true) (hhave : s.dem.haveSample = true)
    (hchain : chainsScn s.cfg = true) (hp : s.scn.phase = .payload) (hh : s.scn.halt = false)
    (hs : s.scn.dscheme = .rll27) (hcollected : collectedBits s.scn = [true]) (hprev : s.dem.prev ≠ b) :
    forwardDem b s = .ended (raise .codeViolation s.scn.idx { s with
      dem := { s.dem with prev := b, cnt := s.dem.cnt + 1 }
      ports := { s.ports with demod := s.ports.demod ++ [true] }
      scn := { s.scn with halt := true, evidx := s.scn.idx } }) := by
  have hemits : (s.dem.prev ^^ b) = true := bne_iff_ne.mpr hprev
  rw [forwardDem_chained hrun hhave hchain ((scnRunning_iff _).mpr ⟨.inr hp, hh⟩), hemits]
  exact scnStep_violation hp hs (by rw [hcollected]; decide) (by rw [hcollected]; decide)

/-- Settles O46: the response the loop noted is pending when the end of the chain raises its own. -/
theorem codeViolationOutranksSaturation : Obligations.CodeViolationOutranksSaturation := by
  intro s b k hrun hk hwraps hchain hdem hhave hp hh hs hcollected hprev hhits
  have own := realAdvance_state s k b
  rw [if_pos ((realWraps_iff _).mpr hwraps), if_pos hhits] at own
  have violation : forwardDem b (realAdvance k b s).1 = .ended _ :=
    forwardDem_two_ones (by rwa [own]) (by rwa [own]) (by rw [own, chainsScn, hchain]; rfl) (by rwa [own])
      (by rwa [own]) (by rwa [own]) (by rwa [own]) (by rwa [own])
  have sample := realCommand_running hrun hk hwraps b
  rw [if_pos (chainSource_real (by rw [hchain]; rfl)), violation, finish_ended, own] at sample
  refine ⟨_, sample, rfl, ?_, ?_, rfl, rfl, rfl, rfl⟩
  · simp [withFlag_getLsbD, Event.flag, Flag.bit]
  · simp [withFlag_getLsbD, Event.flag, Flag.bit]

/-! ### Raising, noting, responding (R201, R203) -/

/-- Settles O10: setting a flag is said bit by bit by `withFlag_getLsbD`. -/
theorem eventsRaisedAndNoted : Obligations.EventsRaisedAndNoted :=
  ⟨rfl, fun e n s => ⟨withFlag e.flag s.status, raise_eq s e n, withFlag_getLsbD e.flag s.status⟩,
    fun e n s => ⟨_, note_eq s e n none, withFlag_getLsbD e.flag s.status⟩,
    fun e n r s => congrArg Prod.snd (note_eq s e n (some r)), fun s r => respond_eq s none r,
    fun s p r => respond_eq s (some p) r⟩

/-! ### NotRunning (R210) -/

/-- A command whose unit does not run raises NotRunning where it began. -/
theorem refuses_of_not_running {run : Bool} (hrun : run = false) (o : StepOutcome) (s : State) :
    (if run then o else raised .notRunning 0 s) =
      .next ({ s with status := s.status ||| 0x200 }.answered 0x13 0) := by
  rw [hrun]; rfl

/-- CDRX takes no sample if it was not started or has halted (spec/44_cdr_fixed.md R163). -/
theorem cdrx_not_running {u : CdrxUnit} (h : u.run = false ∨ u.halt = true) : (u.run && !u.halt) = false := by
  obtain h | h := h <;> simp [h]

theorem scn_not_running {u : ScnUnit} (h : (u.phase ≠ .scan ∧ u.phase ≠ .payload) ∨ u.halt = true) :
    scnRunning u = false := by
  refine Bool.eq_false_iff.mpr fun hr => ?_
  obtain ⟨hphase, hgoing⟩ := (scnRunning_iff u).mp hr
  obtain ⟨hscan, hpayload⟩ | hhalt := h
  · exact hphase.elim hscan hpayload
  · exact Bool.false_ne_true (hgoing.symm.trans hhalt)

/-- Settles O20: unit by unit, each command's guard fails; SCN.END's is the phase (`scnEndOutcomes`). -/
theorem notRunningRefusesDataCommands : Obligations.NotRunningRefusesDataCommands := by
  rintro s i (⟨henc, hrun⟩ | ⟨⟨l, rfl⟩, hrun⟩ | ⟨⟨c, rfl⟩, hstop⟩ | ⟨rfl, hphase⟩ | ⟨hcdrf, hrun⟩ | ⟨hcdrx, hstop⟩)
  · obtain ⟨b, rfl⟩ | ⟨d, rfl⟩ | ⟨c, rfl⟩ | rfl | rfl | ⟨n, rfl⟩ := henc <;> exact refuses_of_not_running hrun _ s
  · exact refuses_of_not_running hrun _ s
  · exact refuses_of_not_running (scn_not_running hstop) _ s
  · obtain ⟨-, -, refuses⟩ := scnEndOutcomes
    exact refuses s hphase
  · obtain ⟨b, rfl⟩ | ⟨a, rfl⟩ := hcdrf <;> exact refuses_of_not_running hrun _ s
  · obtain ⟨b, rfl⟩ | ⟨a, rfl⟩ := hcdrx <;> exact refuses_of_not_running (cdrx_not_running hstop) _ s

end Sys2Proof.Machine
end

section
/-! PROOFS. The family of spec/70_reset_and_hazards.md: the reset values, the good state after reset, loops without
constants, RLL27 frames.

A step of the RLL27 encoder holds its data bit back or completes a row of the code table. The decoder reads a codeword
bit by bit, takes no shorter beginning of it for a codeword, and delivers the row's pattern at its last bit. So decoding
follows the encoder step by step: what is decoded and what is still pending are together the data bits given. -/

namespace Sys2Proof.Machine

/-! ### Reset (spec/70_reset_and_hazards.md R225) -/

/-- Settles O7: register by register, as `State.reset` writes them. -/
theorem resetValues : Obligations.ResetValues :=
  ⟨rfl, rfl, rfl, rfl, rfl, rfl, rfl, rfl, rfl, rfl, rfl, rfl, rfl, rfl, rfl⟩

/-- Settles O59: the base case of every run. -/
theorem resetIsGood : Obligations.ResetIsGood := inv_reset

/-! ### A loop that runs without its constants -/

theorem realCommand_unwritten {s : State} (hrun : s.cdrf.run = true) (hlatch : s.cdrf.latch = none) (b : Bit) :
    realCommand b s = .fault (.latchUnwritten .real) := by rw [realCommand, if_pos hrun, hlatch]

theorem fixedCommand_unwritten {s : State} (hrun : s.cdrx.run = true) (hhalt : s.cdrx.halt = false)
    (hlatch : s.cdrx.latch = none) (w : Option Nat) (b : Bit) :
    fixedCommand w b s = .fault (.latchUnwritten .fixed) := by
  have hgoes : (s.cdrx.run && !s.cdrx.halt) = true := by rw [hrun, hhalt]; rfl
  rw [fixedCommand, if_pos hgoes, hlatch]

/-- Settles O43: a sample and an amplitude are the same command of their path. -/
theorem runningWithoutConstantsStops : Obligations.RunningWithoutConstantsStops :=
  ⟨fun _ b hrun hlatch => realCommand_unwritten hrun hlatch b,
    fun _ a hrun hlatch => realCommand_unwritten hrun hlatch (slice a),
    fun _ b hrun hhalt hlatch => fixedCommand_unwritten hrun hhalt hlatch _ b,
    fun _ a hrun hhalt hlatch => fixedCommand_unwritten hrun hhalt hlatch _ (slice a)⟩

/-! ### The encoder's steps as rows of the code table (spec/40_line_encoders.md R77 to R79) -/

/-- The data bits a pending state stands for (spec/40_line_encoders.md R78). -/
def RllState.pendingBits : RllState → List Bit
  | .idle => []
  | .one => [true]
  | .zero => [false]
  | .zeroOne => [false, true]
  | .zeroZero => [false, false]
  | .zeroZeroOne => [false, false, true]

/-- A step holds the data bit back, or completes a pattern, emits its codeword and holds nothing. -/
theorem leRll_cases (st : RllState) (d : Bit) :
    ((leRll st d).2 = [] ∧ (leRll st d).1.pendingBits = st.pendingBits ++ [d]) ∨
    ((st.pendingBits ++ [d], (leRll st d).2) ∈ rllTable ∧ (leRll st d).1 = .idle) := by
  cases st <;> cases d <;> decide

/-- The flush is a run on the implicit zero bits (spec/40_line_encoders.md R79). -/
theorem flushCode_eq_leRun (st : LineState) :
    flushCode st.rll = (leRun .rll27 st (List.replicate (flushZeros st.rll) false)).2 := by
  obtain ⟨prev, rll⟩ := st
  cases rll <;> rfl

theorem flushZeros_le (st : RllState) : flushZeros st ≤ 2 := by cases st <;> decide

/-- The number of implicit zero bits at the end of a flushed RLL27 stream (spec/70_reset_and_hazards.md R234). -/
def rllPadding (os : List Byte) : Nat := flushZeros (leRun .rll27 .start (bits os)).1.rll

theorem rllPadding_le (os : List Byte) : rllPadding os ≤ 2 := flushZeros_le _

/-- The data bits of a flushed RLL27 stream: the octets' own and the implicit zeros of the flush. -/
def rllPaddedBits (os : List Byte) : List Bit := bits os ++ List.replicate (rllPadding os) false

theorem leRun_rllPaddedBits (os : List Byte) :
    (leRun .rll27 .start (rllPaddedBits os)).2 = bitstream .rll27 os ∧
      (leRun .rll27 .start (rllPaddedBits os)).1.rll = .idle := by
  rw [rllPaddedBits, rllPadding, leRun_append]
  exact ⟨congrArg _ (flushCode_eq_leRun _).symm, leRun_flushZeros _⟩

/-! ### The decoder reads one codeword (spec/42_sync_frame.md R125) -/

theorem rllPattern_codeword : ∀ r ∈ rllTable, rllPattern r.2 = some r.1 := by decide

/-- The first bits of a codeword, short of its end, are no codeword, and the decoder collects them. -/
theorem rllTable_prefixes : ∀ r ∈ rllTable, ∀ n < r.2.length,
    rllPattern (r.2.take n) = none ∧ (0 < n → isRllPrefix (r.2.take n) = true) := by decide

theorem rllTable_length {pat w : List Bit} (hrow : (pat, w) ∈ rllTable) : 1 ≤ w.length ∧ w.length ≤ 8 :=
  (by decide : ∀ r ∈ rllTable, 1 ≤ r.2.length ∧ r.2.length ≤ 8) _ hrow

/-- The state with the code bits `buf` collected. -/
def State.collecting (s : State) (buf : List Bit) : State :=
  { s with scn := { s.scn with cbuf := BitVec.ofNat 8 (msbNat buf), clen := BitVec.ofNat 4 buf.length } }

theorem InPayload.collecting {v : Scheme} {s : State} (h : InPayload v s) (buf : List Bit) :
    InPayload v (s.collecting buf) := ⟨h.phase, h.halt, h.dscheme, h.ok⟩

theorem foldl_assembled_inPayload {v : Scheme} {s : State} (h : InPayload v s) (ds : List Bit) :
    InPayload v (ds.foldl State.assembled s) := by
  induction ds generalizing s with
  | nil => exact h
  | cons d ds ih => exact ih (h.assembled d)

/-- `DEC_CBUF` and `DEC_CLEN` hold up to eight code bits without loss. -/
theorem collectedBits_collecting (s : State) {buf : List Bit} (h : buf.length ≤ 8) :
    collectedBits (s.collecting buf).scn = buf := by
  have hlen : (BitVec.ofNat 4 buf.length).toNat = buf.length := Nat.mod_eq_of_lt (by omega)
  have hnum : (BitVec.ofNat 8 (msbNat buf)).toNat = msbNat buf :=
    Nat.mod_eq_of_lt ((msbNat_lt buf).trans_le (Nat.pow_le_pow_right (by decide) h))
  apply msbNat_inj
  · rw [collectedBits, length_msbBits]; exact hlen
  · rw [collectedBits, msbNat_msbBits, State.collecting]
    dsimp only
    rw [hlen, hnum, Nat.mod_eq_of_lt (msbNat_lt buf)]

/-- The octet assembler and the code-bit buffer do not meet. -/
theorem assembled_collecting (s : State) (buf : List Bit) (d : Bit) :
    (s.collecting buf).assembled d = (s.assembled d).collecting buf := by
  by_cases h : s.scn.cnt.toNat = 7
  · rw [assembled_emits h, assembled_emits (s := s.collecting buf) h]; rfl
  · rw [assembled_waits h, assembled_waits (s := s.collecting buf) h]; rfl

theorem foldl_assembled_collecting (s : State) (buf ds : List Bit) :
    ds.foldl State.assembled (s.collecting buf) = (ds.foldl State.assembled s).collecting buf := by
  induction ds generalizing s with
  | nil => rfl
  | cons d ds ih => rw [List.foldl_cons, assembled_collecting, ih, List.foldl_cons]

section
variable {s : State} (h : InPayload .rll27 s) {buf : List Bit} {c : Bit}
include h

/-- A payload bit that is collected and completes nothing. -/
theorem InPayload.exec_collect (hlen : buf.length ≤ 8) (hnot : rllPattern (buf ++ [c]) = none)
    (hprefix : isRllPrefix (buf ++ [c]) = true) :
    exec (.scnBit c) (s.collecting buf) = .next ((s.collecting (buf ++ [c])).counted 1) := by
  have hbuf := collectedBits_collecting s hlen
  have hdec := rllDecode_collected (s := s.collecting buf) (by rwa [hbuf]) (by rwa [hbuf])
  rw [clen_succ, hbuf, List.length_map] at hdec
  rw [exec_scnBit_payload (h.collecting buf).phase (h.collecting buf).halt
    (payStep_running (h.collecting buf).dscheme hdec), countCodeBit_countPayload]
  exact congrArg _ (answered_self ((h.collecting (buf ++ [c])).counted 1).ok)

/-- A payload bit that completes a codeword. -/
theorem InPayload.exec_complete (hlen : buf.length ≤ 8) {pat : List Bit} (hpat : rllPattern (buf ++ [c]) = some pat) :
    exec (.scnBit c) (s.collecting buf) =
      .next (((pat.foldl State.assembled s).collecting []).counted 1) := by
  have hbuf := collectedBits_collecting s hlen
  have hdec := rllDecode_codeword (s := s.collecting buf) (by rwa [hbuf])
  rw [foldl_assembled_collecting] at hdec
  rw [exec_scnBit_payload (h.collecting buf).phase (h.collecting buf).halt
    (payStep_running (h.collecting buf).dscheme hdec), countCodeBit_countPayload]
  exact congrArg _ (answered_self (((foldl_assembled_inPayload h pat).collecting []).counted 1).ok)

/-- The first `n` bits of a codeword `w`, short of its end. -/
theorem InPayload.execAll_prefix {pat w : List Bit} (hrow : (pat, w) ∈ rllTable) {n : Nat} (hn : n < w.length) :
    execAll ((w.take n).map .scnBit) (s.collecting []) = .next ((s.collecting (w.take n)).counted n) := by
  induction n with
  | zero => rfl
  | succ n ih =>
    have hlong : w.length ≤ 8 := (rllTable_length hrow).2
    have hnext : w.take n ++ [w[n]] = w.take (n + 1) := List.take_append_getElem (by omega)
    obtain ⟨hnot, hprefix⟩ := rllTable_prefixes _ hrow (n + 1) hn
    rw [← hnext] at hnot hprefix
    have hbit : exec (.scnBit w[n]) ((s.collecting (w.take n)).counted n) =
        .next (((s.collecting (w.take n ++ [w[n]])).counted n).counted 1) :=
      (h.counted n).exec_collect (by rw [List.length_take]; omega) hnot (hprefix n.succ_pos)
    rw [← hnext, List.map_append, execAll_append _ _ _ _ (ih (by omega)), List.map_singleton, execAll_cons hbit,
      counted_counted, Nat.add_comm 1 n]
    rfl

/-- A codeword delivers its pattern and leaves no code bit collected. -/
theorem InPayload.execAll_codeword {pat w : List Bit} (hrow : (pat, w) ∈ rllTable) :
    execAll (w.map .scnBit) (s.collecting []) =
      .next (((pat.foldl State.assembled s).collecting []).counted w.length) := by
  obtain ⟨hpos, hlong⟩ := rllTable_length hrow
  obtain rfl | ⟨buf, c, rfl⟩ := List.eq_nil_or_concat' w
  · exact absurd hpos (Nat.not_succ_le_zero 0)
  · have hlen : buf.length + 1 = (buf ++ [c]).length := by rw [List.length_append, List.length_singleton]
    have hbuf := h.execAll_prefix hrow (n := buf.length) (by omega)
    rw [List.take_left] at hbuf
    have hbit : exec (.scnBit c) ((s.collecting buf).counted buf.length) =
        .next (((((pat.foldl State.assembled s).counted buf.length).collecting []).counted 1)) := by
      rw [← foldl_assembled_counted]
      exact (h.counted buf.length).exec_complete (by omega) (rllPattern_codeword _ hrow)
    rw [List.map_append, execAll_append _ _ _ _ hbuf, List.map_singleton, execAll_cons hbit, ← hlen, Nat.add_comm,
      ← counted_counted]
    rfl

end

/-! ### The decoder follows the encoder -/

/-- An RLL27 stream decodes to data bits that, with those still pending in the encoder, are the ones encoded. -/
theorem execAll_leRun_rll27 (st : LineState) (ds : List Bit) {s : State} (h : InPayload .rll27 s) :
    ∃ out, out ++ (leRun .rll27 st ds).1.rll.pendingBits = st.rll.pendingBits ++ ds ∧
      execAll ((leRun .rll27 st ds).2.map .scnBit) (s.collecting []) =
        .next (((out.foldl State.assembled s).collecting []).counted (leRun .rll27 st ds).2.length) := by
  induction ds generalizing st s with
  | nil => exact ⟨[], (List.append_nil _).symm, rfl⟩
  | cons d ds ih =>
    obtain ⟨hcode, hpending⟩ | ⟨hrow, hidle⟩ := leRll_cases st.rll d
    · obtain ⟨out, hout, hrun⟩ := ih (leStep .rll27 st d).1 h
      refine ⟨out, ?_, ?_⟩
      · rw [leRun, hout, leStep, hpending, List.append_assoc, List.singleton_append]
      · rw [leRun, leStep, hcode, List.nil_append]; exact hrun
    · have hword := h.execAll_codeword hrow
      obtain ⟨out, hout, hrun⟩ := ih (leStep .rll27 st d).1
        ((foldl_assembled_inPayload h (st.rll.pendingBits ++ [d])).counted (leRll st.rll d).2.length)
      refine ⟨st.rll.pendingBits ++ [d] ++ out, ?_, ?_⟩
      · rw [leRun, List.append_assoc, hout, leStep, hidle]
        simp [RllState.pendingBits]
      · rw [leRun, leStep, List.map_append, execAll_append _ _ _ _ hword]
        refine hrun.trans (congrArg _ ?_)
        have hsplit : (st.rll.pendingBits ++ [d] ++ out).foldl State.assembled s =
            out.foldl State.assembled ((st.rll.pendingBits ++ [d]).foldl State.assembled s) := List.foldl_append
        rw [foldl_assembled_counted, hsplit, List.length_append, Nat.add_comm, ← counted_counted]; rfl

/-- A flushed stream decodes to its data bits and the zeros of the flush. -/
theorem execAll_bitstream_rll27 (os : List Byte) {s : State} (h : InPayload .rll27 s) :
    execAll ((bitstream .rll27 os).map .scnBit) (s.collecting []) =
      .next ((((rllPaddedBits os).foldl State.assembled s).collecting []).counted (bitstream .rll27 os).length) := by
  obtain ⟨hcode, hidle⟩ := leRun_rllPaddedBits os
  obtain ⟨out, hout, hrun⟩ := execAll_leRun_rll27 .start (rllPaddedBits os) h
  have hall : out = rllPaddedBits os := by rw [hidle] at hout; exact (List.append_nil out).symm.trans hout
  rwa [hcode, hall] at hrun

/-! ### RLL27 frames (spec/70_reset_and_hazards.md R234) -/

theorem octetsOf_bits_append (os : List Byte) {few : List Bit} (h : few.length < 8) :
    octetsOf (bits os ++ few) = (os, few) := by
  induction os with
  | nil => exact octetsOf_few h
  | cons b os ih =>
    rw [bits_cons, bits_singleton, List.append_assoc, octetsOf_append rfl, ih, ofNat_msbNat_octetBits]

/-- A marker of at least one bit is its own first match. -/
theorem execAll_scnStart_marker {s : State} (v : Scheme) (hpos : 1 ≤ s.cfg.markerLen.toNat)
    (hlen : s.cfg.markerLen.toNat ≤ 64) :
    execAll (.scnStart v :: s.marker.map .scnBit) s = .next (s.located v s.marker) := by
  have hlong : s.marker.length = s.cfg.markerLen.toNat := length_msbBits _ _
  obtain hnil | ⟨a, c, hcut⟩ := List.eq_nil_or_concat' s.marker
  · rw [hnil] at hlong
    exact absurd hlong (by rw [List.length_nil]; omega)
  · have hnot : ¬s.marker <:+: a := fun hi => by
      have hle := hi.length_le
      rw [hcut, List.length_append, List.length_singleton] at hle
      omega
    have hsuf : s.marker <:+ a ++ [c] := hcut ▸ List.suffix_rfl
    rw [hcut]
    exact execAll_located hlen hnot hsuf

/-- The state after an RLL27 frame: the octets on BYTE, the zeros of the flush in the assembler. -/
def State.rllFramed (s : State) (os : List Byte) : State :=
  (((s.located .rll27 s.marker).delivered os (List.replicate (rllPadding os) false)).collecting []).counted
    (bitstream .rll27 os).length

theorem rllFramed_cnt (s : State) (os : List Byte) : (s.rllFramed os).scn.cnt.toNat = rllPadding os := by
  have hle := rllPadding_le os
  have hlen : (List.replicate (rllPadding os) false).length % 2 ^ 3 = rllPadding os := by
    rw [List.length_replicate]; omega
  exact hlen

theorem execAll_rllFrame {s : State} (os : List Byte) (hpos : 1 ≤ s.cfg.markerLen.toNat)
    (hlen : s.cfg.markerLen.toNat ≤ 64) :
    execAll (.scnStart .rll27 :: (s.marker ++ bitstream .rll27 os).map .scnBit) s = .next (s.rllFramed os) := by
  have hfew : (List.replicate (rllPadding os) false).length < 8 := by
    rw [List.length_replicate]
    exact (rllPadding_le os).trans_lt (by decide)
  have hoctets := foldl_assembled_octets (s.located .rll27 s.marker) (rllPaddedBits os) []
  rw [located_delivered_nil, rllPaddedBits, octetsOf_bits_append os hfew] at hoctets
  have hstart := execAll_scnStart_marker .rll27 hpos hlen
  have hpayload := execAll_bitstream_rll27 os (located_inPayload s .rll27 s.marker)
  rw [rllPaddedBits, hoctets] at hpayload
  rw [List.map_append, ← List.cons_append, execAll_append _ _ _ _ hstart]
  exact hpayload

/-- SCN.END in the payload reports the data bits the assembler holds (spec/42_sync_frame.md R127). -/
theorem exec_scnEnd_payload {s : State} (hp : s.scn.phase = .payload) : ∃ t, exec .scnEnd s = .next t ∧
    t.ports = s.ports ∧
    t.response = some (if s.scn.cnt.toNat = 0 then ⟨0, 0⟩ else ⟨0x02, BitVec.ofNat 64 s.scn.cnt.toNat⟩) ∧
    t.scn.discard = s.scn.cnt := by
  by_cases h0 : s.scn.cnt = 0
  · refine ⟨_, exec_scnEnd_whole hp h0, rfl, ?_, h0.symm⟩
    rw [h0]; rfl
  · have hne : s.scn.cnt.toNat ≠ 0 := fun h => h0 (BitVec.eq_of_toNat_eq h)
    refine ⟨_, exec_scnEnd_truncated hp h0, rfl, ?_, rfl⟩
    rw [if_neg hne]; rfl

/-- Settles O30: at SCN.END the assembler holds the zeros of the flush, and nothing else. -/
theorem rllFrameRoundTrip : Obligations.RllFrameRoundTrip := by
  intro s os hpos hlen
  obtain ⟨t, hend, hports, hresponse, hdiscard⟩ := exec_scnEnd_payload (s := s.rllFramed os) rfl
  rw [rllFramed_cnt] at hresponse
  have hframe := execAll_append _ [.scnEnd] _ _ (execAll_rllFrame os hpos hlen)
  exact ⟨t, hframe.trans (execAll_cons hend), hports, hresponse,
    (congrArg BitVec.toNat hdiscard).trans (rllFramed_cnt s os)⟩

end Sys2Proof.Machine
end
